-- ==== Sys2Proof/Word.lean ====
section
/-! DEFINITION. The word types of CRCFMT (spec/00_scope.md R7: a byte is 8 bits, a word is 16 bits). -/

namespace Sys2Proof

/-- A byte: 8 bits (R7). -/
abbrev Byte := BitVec 8

/-- A word: 16 bits (R7). -/
abbrev Word := BitVec 16

end Sys2Proof
end

