-- ==== Sys2Proof/Syntax.lean ====
section
/-! DEFINITION. The instructions: one constructor per row of spec/opcode_table.json, and the two formats in which
one stands at the request port. -/

namespace Sys2Proof

/-- What stands at the request port: the two formats of spec/opcode_table.json. -/
inductive Request where
  /-- Format REQ40: the 40-bit request word `{OP, A, B}` (30_encoding.md R56). -/
  | req (w : BitVec 40)
  /-- Format WIRE_CMD16: a bare device command word `c`, with the data word that follows it where there is one
  (R50, R51, R54; DESIGN CHOICE, log entry 7). -/
  | wire (c : Word) (d : Option Word)
deriving DecidableEq, Repr

/-- One constructor per row of the opcode table. `ignored` holds the operand bits the operation does not use
(R59 (f)): they are kept so that decoding loses no bit (log entry 8). -/
inductive Instr where
  /-- `CRC8 byte0, byte1` (40_crc8.md R74). -/
  | crc8 (byte0 byte1 : Byte) (ignored : BitVec 16)
  /-- `CMD c` (41_formatter.md R82). -/
  | cmd (c : Word) (ignored : BitVec 16)
  /-- `CMDW c, d` (R83). -/
  | cmdw (c d : Word)
  /-- `RESP` (R86). -/
  | resp (ignored : BitVec 32)
  /-- `CFGWR v` (42_system.md R100). -/
  | cfgwr (v : BitVec 2) (ignored : BitVec 30)
  /-- `RDREG r` (R101). -/
  | rdreg (r : BitVec 4) (ignored : BitVec 28)
  /-- `IAQ_INIT` = `CMD 0x2003` (R63, R88). -/
  | iaqInit (ignored : BitVec 16)
  /-- `MEAS_IAQ` = `CMD 0x2008` (R63, R89). -/
  | measIaq (ignored : BitVec 16)
  /-- `MEAS_RAW` = `CMD 0x2050` (R63, R90). -/
  | measRaw (ignored : BitVec 16)
  /-- `SET_AH d` = `CMDW 0x2061, d` (R63, R91). -/
  | setAh (d : Word)
  /-- `SET_BASELINE` = `CMD 0x201E` (R63, R92). -/
  | setBaseline (ignored : BitVec 16)
  /-- The bare device command word 0x2003 (R54, R88). -/
  | wireIaqInit
  /-- The bare device command word 0x2008 (R54, R89). -/
  | wireMeasIaq
  /-- The bare device command word 0x2050 (R54, R90). -/
  | wireMeasRaw
  /-- The bare device command word 0x2061 and its data word (R51, R54, R91). -/
  | wireSetAh (d : Word)
  /-- The bare device command word 0x201E (R54, R92). -/
  | wireSetBaseline
deriving DecidableEq, Repr

/-- Why the decoder gives no instruction. -/
inductive Reject where
  /-- `OP` is 0x00 or 0x07 to 0xFF (R60). The block answers IllegalRequest (R102). -/
  | undefinedOp (op : BitVec 8)
deriving DecidableEq, Repr

end Sys2Proof
end

