-- ==== Sys2Proof/WellFormed.lean ====
section
/-! DEFINITION. Which terms are the canonical reading of an encoding. A request word whose `OP` and `A` fields
match an alias row of the opcode table IS that row (the more specific match, log entry 6), so the general row with
the same command word is not well-formed. Every operand value the encoding admits is otherwise well-formed: the block
checks no operand (R61, R114). -/

namespace Sys2Proof

/-- The command words that CMD has an alias row for (R63). -/
def Instr.cmdAliases : List Word := [0x2003, 0x2008, 0x2050, 0x201E]

/-- The command words that CMDW has an alias row for (R63). -/
def Instr.cmdwAliases : List Word := [0x2061]

/-- Is the term the decoder's own reading of its encoding? -/
def Instr.wf : Instr → Bool
  | .crc8 _ _ _ => true
  | .cmd c _ => !(Instr.cmdAliases.contains c)
  | .cmdw c _ => !(Instr.cmdwAliases.contains c)
  | .resp _ => true
  | .cfgwr _ _ => true
  | .rdreg _ _ => true
  | .iaqInit _ => true
  | .measIaq _ => true
  | .measRaw _ => true
  | .setAh _ => true
  | .setBaseline _ => true
  | .wireIaqInit => true
  | .wireMeasIaq => true
  | .wireMeasRaw => true
  | .wireSetAh _ => true
  | .wireSetBaseline => true

end Sys2Proof
end

