-- ==== Sys2Proof/Decode.lean ====
section
/-! DEFINITION. Decoding what stands at the request port, total, rejecting by name; after it the encoder, written
from the same tables (30_encoding.md R54, R56, R58, R59, R63), and the assembler's form of an instruction (R62). -/

namespace Sys2Proof

/-- Field `OP`, bits 39:32 (R56). -/
def reqOp (w : BitVec 40) : BitVec 8 := w.extractLsb' 32 8

/-- Field `A`, bits 31:16 (R56). -/
def reqA (w : BitVec 40) : Word := w.extractLsb' 16 16

/-- Field `B`, bits 15:0 (R56). -/
def reqB (w : BitVec 40) : Word := w.extractLsb' 0 16

/-- `OP = 0x02`: the row of the opcode table with the most specific match on `A` (R54, R58, R63; log entry 6). -/
def decodeCmd (a b : Word) : Instr :=
  if a = 0x2003 then .iaqInit b
  else if a = 0x2008 then .measIaq b
  else if a = 0x2050 then .measRaw b
  else if a = 0x201E then .setBaseline b
  else .cmd a b

/-- `OP = 0x03` (R58, R63). -/
def decodeCmdw (a b : Word) : Instr :=
  if a = 0x2061 then .setAh b else .cmdw a b

/-- The request word (R58, R59); an undefined `OP` is rejected by name (R60). -/
def decodeReq (w : BitVec 40) : Except Reject Instr :=
  if reqOp w = 0x01 then .ok (.crc8 (w.extractLsb' 24 8) (w.extractLsb' 16 8) (reqB w))
  else if reqOp w = 0x02 then .ok (decodeCmd (reqA w) (reqB w))
  else if reqOp w = 0x03 then .ok (decodeCmdw (reqA w) (reqB w))
  else if reqOp w = 0x04 then .ok (.resp (w.extractLsb' 0 32))
  else if reqOp w = 0x05 then .ok (.cfgwr (w.extractLsb' 0 2) (w.extractLsb' 2 30))
  else if reqOp w = 0x06 then .ok (.rdreg (w.extractLsb' 0 4) (w.extractLsb' 4 28))
  else .error (.undefinedOp (reqOp w))

/-- A bare command word, with or without a data word (R54; log entry 7). Command words are not checked (R61): one
without a row of its own is formatted as CMD formats it, or as CMDW formats it where a data word follows. -/
def decodeWire (c : Word) (d : Option Word) : Instr :=
  match d with
  | none =>
    if c = 0x2003 then .wireIaqInit
    else if c = 0x2008 then .wireMeasIaq
    else if c = 0x2050 then .wireMeasRaw
    else if c = 0x201E then .wireSetBaseline
    else .cmd c 0
  | some d => if c = 0x2061 then .wireSetAh d else .cmdw c d

/-- The decoder: what stands at the request port, read as an instruction or rejected by name. -/
def decode : Request → Except Reject Instr
  | .req w => decodeReq w
  | .wire c d => .ok (decodeWire c d)

/-- The request word `{OP, A, B}` (R56). -/
def reqWord (op : BitVec 8) (a b : Word) : BitVec 40 := op ++ a ++ b

/-- The encoder: the words of an instruction (R54, R56, R58, R59, R63). -/
def encode : Instr → Request
  | .crc8 byte0 byte1 ignored => .req (reqWord 0x01 (byte0 ++ byte1) ignored)
  | .cmd c ignored => .req (reqWord 0x02 c ignored)
  | .cmdw c d => .req (reqWord 0x03 c d)
  | .resp ignored => .req (0x04#8 ++ ignored)
  | .cfgwr v ignored => .req (0x05#8 ++ ignored ++ v)
  | .rdreg r ignored => .req (0x06#8 ++ ignored ++ r)
  | .iaqInit ignored => .req (reqWord 0x02 0x2003 ignored)
  | .measIaq ignored => .req (reqWord 0x02 0x2008 ignored)
  | .measRaw ignored => .req (reqWord 0x02 0x2050 ignored)
  | .setAh d => .req (reqWord 0x03 0x2061 d)
  | .setBaseline ignored => .req (reqWord 0x02 0x201E ignored)
  | .wireIaqInit => .wire 0x2003 none
  | .wireMeasIaq => .wire 0x2008 none
  | .wireMeasRaw => .wire 0x2050 none
  | .wireSetAh d => .wire 0x2061 (some d)
  | .wireSetBaseline => .wire 0x201E none

/-- The instruction with zeros in the operand bits it ignores: what the assembler emits (R59 (f), R62). -/
def Instr.assembled : Instr → Instr
  | .crc8 byte0 byte1 _ => .crc8 byte0 byte1 0
  | .cmd c _ => .cmd c 0
  | .cmdw c d => .cmdw c d
  | .resp _ => .resp 0
  | .cfgwr v _ => .cfgwr v 0
  | .rdreg r _ => .rdreg r 0
  | .iaqInit _ => .iaqInit 0
  | .measIaq _ => .measIaq 0
  | .measRaw _ => .measRaw 0
  | .setAh d => .setAh d
  | .setBaseline _ => .setBaseline 0
  | .wireIaqInit => .wireIaqInit
  | .wireMeasIaq => .wireMeasIaq
  | .wireMeasRaw => .wireMeasRaw
  | .wireSetAh d => .wireSetAh d
  | .wireSetBaseline => .wireSetBaseline

/-- The words a mnemonic line stands for (R62, R63). -/
def assemble (i : Instr) : Request := encode i.assembled

/-- The bits of an opcode-table row as they stand at the request port: a row of 40 bits is a request word, a row of
16 bits a bare command word. The data word of `wire:SET_AH` is the operand word above its 16 bits (bits 31:16). -/
def tableRequest (nbits w : Nat) : Option Request :=
  if nbits = 40 then some (.req (BitVec.ofNat 40 w))
  else if nbits = 16 then
    let c : Word := BitVec.ofNat 16 w
    some (.wire c (if c = 0x2061 then some (BitVec.ofNat 16 (w / 65536)) else none))
  else none

/-- What the decoder reads from an opcode-table row's bits. -/
def decodeTableWord (nbits w : Nat) : Option Instr :=
  match tableRequest nbits w with
  | none => none
  | some r =>
    match decode r with
    | .ok i => some i
    | .error _ => none

end Sys2Proof
end

