-- ==== Sys2Proof/Config.lean ====
section
/-! DEFINITION. What is fixed for a run and is not state of the block: the vocabulary of the transport's answers,
and the delay values of the HOST model (R5, R140), which no rule of the block reads. -/

namespace Sys2Proof.Config

/-- What the transport answers to one call of a bus primitive (20_memory.md R30, R31). The third outcome of R31,
"no return", is the absence of an answer (log entry 2).
DEDUCED (R31, C2, D28): for a read, `returns supply` says which bytes the device can supply; a read of `n` bytes
takes exactly the first `n` of them and fails if there are fewer. -/
inductive BusAnswer where
  /-- The primitive returns; `supply` is what a read can take its bytes from (a write ignores it). -/
  | returns (supply : List Byte)
  /-- The primitive returns `fail`. -/
  | fails
deriving DecidableEq, Repr

/-- The time values of the host model in milliseconds: arguments with DOC0's values as defaults (00_scope.md R5,
70_reset_and_hazards.md R140, D23). -/
structure HostDelays where
  /-- `T_MEAS_MS`: after MEAS_IAQ, before RESP. -/
  tMeasMs : Nat := 12
  /-- `T_RAW_MS`: after MEAS_RAW, before RESP. -/
  tRawMs : Nat := 25
  /-- `T_CMD_MS`: after IAQ_INIT, after SET_BASELINE. -/
  tCmdMs : Nat := 10
  /-- `T_BURNIN_MS`: once, after the very first IAQ_INIT. -/
  tBurninMs : Nat := 15000
  /-- `T_PERIOD_MS`: the cycle of the sampler. The sampler is excluded software (R3), so the parameter stands here and
  nothing reads it. -/
  tPeriodMs : Nat := 1000
  /-- The delay after SET_AH, which DOC0 does not state: a parameter left open, with no default (R135, R140, U16). -/
  tAhMs : Nat
deriving DecidableEq, Repr

end Sys2Proof.Config
end

