-- ==== Sys2Proof/Machine/State.lean ====
section
/-! DEFINITION. The state of CRCFMT as plain data (10_state.md R10, R21), its reset value (R23, 70_reset_and_hazards.md R130,
R131), and the reasons a step can stop. -/

namespace Sys2Proof.Machine

/-- The result of a bus write (20_memory.md R30). -/
inductive WriteResult where
  | ok
  | fail
deriving DecidableEq, Repr

/-- The result of a bus read that returned (20_memory.md R31, outcomes 1 and 2). -/
inductive ReadResult where
  | bytes (b : List Byte)
  | fail
deriving DecidableEq, Repr

/-- A bus event of the history `H` (20_memory.md R32). -/
inductive BusEvent where
  /-- `Wr(addr, v, result)`. -/
  | wr (addr : BitVec 7) (v : List Byte) (result : WriteResult)
  /-- `Rd(addr, n, result)`. -/
  | rd (addr : BitVec 7) (n : Nat) (result : ReadResult)
deriving DecidableEq, Repr

/-- The machine. The registers are R10's (ADDR is hardwired: `State.addr`, log entry 9); `hist` is `H` (R21, R32). -/
structure State where
  /-- `CFG = {CRCCHK, VARIANT}` (R14). -/
  cfg : BitVec 2
  /-- `STATUS = {VALID, CERR, TERR}` (R15). -/
  status : BitVec 3
  /-- `W0`, first word of the last accepted reading (R16). -/
  w0 : Word
  /-- `W1`, second word of the last accepted reading (R16). -/
  w1 : Word
  /-- `RXLEN`, length of the last completed read (R19). -/
  rxlen : BitVec 3
  /-- `RXBUF[0..5]` (R19). -/
  rxbuf : Vector Byte 6
  /-- `H`, oldest event first (R32). The block never reads it (R21). -/
  hist : List BusEvent
  /-- The response words presented so far, oldest first (R57; DESIGN CHOICE, log entry 5). -/
  rsps : List (BitVec 40)
  /-- Requests presented and not yet taken, next first (R9, R41; DESIGN CHOICE, log entry 1). -/
  reqs : List Request
  /-- The transport's answers to the coming bus accesses, next first (R9; DESIGN CHOICE, log entry 2). -/
  answers : List Config.BusAnswer
  /-- The platform's reset input (R130; DESIGN CHOICE, log entry 4). -/
  resetIn : Bool
deriving DecidableEq, Repr

/-- Why the machine has no step. -/
inductive Fault where
  /-- Raised by the bus operations (CMD, CMDW, RESP, their aliases and the wire rows) when the bus primitive has not
  returned: there is no step (R9, R31 outcome 3, R137). Safe: it is the spec's own absence of a step (log entry 3). -/
  | busStalled
deriving DecidableEq, Repr

/-- Why an instruction has no meaning. -/
inductive Refusal where
  /-- Raised only by a refused arm of `exec`; no arm of this model is refused. Safe. -/
  | notModelled (mnemonic : String)
deriving DecidableEq, Repr

/-- Right after reset (R23, R32, R130): every register value is the spec's; the model's own fields are empty
(DESIGN CHOICE, log entry 11): no request, no answer, no response, the reset input released. -/
def State.reset : State where
  cfg := 0
  status := 0
  w0 := 0
  w1 := 0
  rxlen := 0
  rxbuf := #v[0, 0, 0, 0, 0, 0]
  hist := []
  rsps := []
  reqs := []
  answers := []
  resetIn := false

/-- The outcome of a meaning. -/
abbrev Result := Host.Outcome State Fault Refusal

end Sys2Proof.Machine
end

