-- ==== Sys2Proof/Machine/Flags.lean ====
section
/-! DEFINITION. The fields of CFG and STATUS and how STATUS is written (10_state.md R12 to R15). -/

namespace Sys2Proof.Machine

/-- The response layout that `CFG.VARIANT` selects (R12). -/
inductive Variant where
  /-- 6 bytes, a CRC byte after each word; `VARIANT = 0`. -/
  | A
  /-- 4 bytes, no CRC; `VARIANT = 1`. -/
  | B
deriving DecidableEq, Repr

/-- `CFG.VARIANT`, bit 0 (R12). -/
def cfgVariant (cfg : BitVec 2) : Variant := if cfg.getLsbD 0 then .B else .A

/-- `CFG.CRCCHK`, bit 1: strict if set (R13). -/
def cfgCrcchk (cfg : BitVec 2) : Bool := cfg.getLsbD 1

/-- `STATUS.TERR`, bit 0 (R15). -/
def statusTerr (st : BitVec 3) : Bool := st.getLsbD 0

/-- `STATUS.CERR`, bit 1 (R15). -/
def statusCerr (st : BitVec 3) : Bool := st.getLsbD 1

/-- `STATUS.VALID`, bit 2 (R15). -/
def statusValid (st : BitVec 3) : Bool := st.getLsbD 2

/-- `STATUS = {VALID, CERR, TERR}` (R15). -/
def statusWord (valid cerr terr : Bool) : BitVec 3 :=
  BitVec.ofBool valid ++ BitVec.ofBool cerr ++ BitVec.ofBool terr

/-- `TERR` and `CERR` are rewritten together by every bus operation; `VALID` is kept (R15). -/
def statusSetErrors (st : BitVec 3) (cerr terr : Bool) : BitVec 3 :=
  statusWord (statusValid st) cerr terr

/-- An accepted reading sets `VALID` (R15, R86). -/
def statusSetValid (st : BitVec 3) : BitVec 3 :=
  statusWord true (statusCerr st) (statusTerr st)

end Sys2Proof.Machine
end

