-- ==== Sys2Proof/Machine/Operands.lean ====
section
/-! DEFINITION. Byte order, the frames written, the response layouts read, and the register index operand
(20_memory.md R33 to R36, 30_encoding.md R50 to R53, 41_formatter.md R80, R81, R84, R85, 10_state.md R17, R18). -/

namespace Sys2Proof.Machine

/-- `hi8(w) = w[15:8]` (R7). -/
def hi8 (w : Word) : Byte := w.extractLsb' 8 8

/-- `lo8(w) = w[7:0]` (R7). -/
def lo8 (w : Word) : Byte := w.extractLsb' 0 8

/-- `be16(hi, lo) = {hi, lo}` (R7, R34). -/
def be16 (hi lo : Byte) : Word := hi ++ lo

/-- `DEV_ADDR`: the value hardwired in `ADDR` (00_scope.md R4, 10_state.md R17). -/
def devAddr : BitVec 7 := 0x58

/-- Register `ADDR`: a hardwired constant, the same in every state (R17, R40; log entry 9). -/
def State.addr (_ : State) : BitVec 7 := devAddr

/-- The 2-byte command frame (R50, R80). -/
def frameCmd (c : Word) : List Byte := [hi8 c, lo8 c]

/-- The 5-byte command-with-word frame; the CRC covers the data bytes only (R51, R81). -/
def frameCmdw (c d : Word) : List Byte :=
  [hi8 c, lo8 c, hi8 d, lo8 d, crc8 (hi8 d) (lo8 d)]

/-- The fixed length of a response read (R37, R84). -/
def respLen : Variant → Nat
  | .A => 6
  | .B => 4

/-- Byte `k` of a byte sequence (R7). Only offsets below the length are ever asked for (R31, R36); past it no value
means anything (log entry 13). -/
def byteAt (buf : List Byte) (k : Nat) : Byte := buf.getD k 0

/-- What `decode` says of a response buffer (R85). -/
structure Decoded where
  w0 : Word
  w1 : Word
  ok : Bool
deriving DecidableEq, Repr

/-- `decode(variant, chk, buf)` (R85, with C1's offsets; layouts R52, R53; policy R87). -/
def decodeResp (variant : Variant) (chk : Bool) (buf : List Byte) : Decoded :=
  match variant with
  | .A =>
    { w0 := be16 (byteAt buf 0) (byteAt buf 1)
      w1 := be16 (byteAt buf 3) (byteAt buf 4)
      ok := !chk || (crcOk (byteAt buf 0) (byteAt buf 1) (byteAt buf 2) &&
        crcOk (byteAt buf 3) (byteAt buf 4) (byteAt buf 5)) }
  | .B =>
    { w0 := be16 (byteAt buf 0) (byteAt buf 1)
      w1 := be16 (byteAt buf 2) (byteAt buf 3)
      ok := true }

/-- The registers the host can read (R18). -/
inductive Reg where
  | cfg
  | status
  | w0
  | w1
  | addr
  | rxlen
  | rxbuf (k : Fin 6)
deriving DecidableEq, Repr

/-- The register at an index; 6, 7, 14 and 15 are reserved (R18). -/
def regOfIndex (r : BitVec 4) : Option Reg :=
  match r.toNat with
  | 0 => some .cfg
  | 1 => some .status
  | 2 => some .w0
  | 3 => some .w1
  | 4 => some .addr
  | 5 => some .rxlen
  | 8 => some (.rxbuf 0)
  | 9 => some (.rxbuf 1)
  | 10 => some (.rxbuf 2)
  | 11 => some (.rxbuf 3)
  | 12 => some (.rxbuf 4)
  | 13 => some (.rxbuf 5)
  | _ => none

/-- The index of a register: the number its name stands for in the assembler's syntax (R18, R62). -/
def Reg.index : Reg → BitVec 4
  | .cfg => 0
  | .status => 1
  | .w0 => 2
  | .w1 => 3
  | .addr => 4
  | .rxlen => 5
  | .rxbuf k => BitVec.ofNat 4 (8 + k.val)

/-- The value RDREG returns of a register, zero-extended to 16 bits (R18, R101). -/
def readReg (x : Reg) (s : State) : Word :=
  match x with
  | .cfg => s.cfg.setWidth 16
  | .status => s.status.setWidth 16
  | .w0 => s.w0
  | .w1 => s.w1
  | .addr => s.addr.setWidth 16
  | .rxlen => s.rxlen.setWidth 16
  | .rxbuf k => (s.rxbuf[k.val]).setWidth 16

end Sys2Proof.Machine
end

