-- ==== Sys2Proof/Machine/Ops.lean ====
section
/-! DEFINITION. The named operations every meaning is made of: the response, raising an error (the only kind of
exception there is: 60_exceptions.md R110, R115; there is no return from one, R118), the two bus primitives, the
registers' updates, the request port and the block reset. -/

namespace Sys2Proof.Machine

/-- The status codes of a response (30_encoding.md R57, 60_exceptions.md R110). -/
inductive RspCode where
  | ok
  | transportError
  | checksumMismatch
  | illegalRequest
deriving DecidableEq, Repr

/-- The numeric code in field `ST` (R57). -/
def RspCode.st : RspCode → BitVec 8
  | .ok => 0x00
  | .transportError => 0x01
  | .checksumMismatch => 0x02
  | .illegalRequest => 0x03

/-- The response word `{ST, D1, D0}` (R57). -/
def rspWord (st : RspCode) (d1 d0 : Word) : BitVec 40 := st.st ++ d1 ++ d0

/-- `respond(ST, D1, D0)`: presents the response word (R57). -/
def respond (st : RspCode) (d1 d0 : Word) (s : State) : State :=
  { s with rsps := s.rsps ++ [rspWord st d1 d0] }

/-- A bus operation rewrites `TERR` and `CERR` (10_state.md R15). -/
def setErrors (cerr terr : Bool) (s : State) : State :=
  { s with status := statusSetErrors s.status cerr terr }

/-- The errors of R110. -/
inductive Error where
  | transportError
  | checksumMismatch
  | illegalRequest
deriving DecidableEq, Repr

/-- The code an error is reported with (R110). -/
def Error.code : Error → RspCode
  | .transportError => .transportError
  | .checksumMismatch => .checksumMismatch
  | .illegalRequest => .illegalRequest

/-- What an error records (R110, column "recorded"; R111 to R113). -/
def recordError (e : Error) (s : State) : State :=
  match e with
  | .transportError => setErrors false true s
  | .checksumMismatch => setErrors true false s
  | .illegalRequest => s

/-- `raise <Error>`: the record of the error and its response, nothing else; control goes nowhere (R115). -/
def raiseError (e : Error) (d1 d0 : Word) (s : State) : State :=
  respond e.code d1 d0 (recordError e s)

/-- The result `MemWrite` gives for the transport's answer (20_memory.md R30). -/
def memWrite : Config.BusAnswer → WriteResult
  | .returns _ => .ok
  | .fails => .fail

/-- The result `MemRead` of `n` bytes gives for the transport's answer: exactly `n` bytes, or failure where fewer are
available (R31, D28). -/
def memRead (n : Nat) : Config.BusAnswer → ReadResult
  | .returns supply => if n ≤ supply.length then .bytes (supply.take n) else .fail
  | .fails => .fail

/-- A bus access that returned: its answer is used up and its event stands in the history (R32). -/
def logEvent (e : BusEvent) (s : State) : State :=
  { s with hist := s.hist ++ [e], answers := s.answers.tail }

/-- One bus write of a whole frame, as CMD and CMDW make it (41_formatter.md R82, R83; atomic, 20_memory.md R38). With
no answer of the transport there is no step (R9, R30; log entry 3). -/
def writeFrame (v : List Byte) (s : State) : Result :=
  match s.answers with
  | [] => .fault .busStalled
  | a :: _ =>
    match memWrite a with
    | .fail => .next (raiseError .transportError 0 0 (logEvent (.wr s.addr v .fail) s))
    | .ok => .next (respond .ok 0 0 (setErrors false false (logEvent (.wr s.addr v .ok) s)))

/-- Write a command word's 2-byte frame (R82). -/
def sendCommand (c : Word) (s : State) : Result := writeFrame (frameCmd c) s

/-- Write a command word and a data word as one 5-byte frame (R83). -/
def sendCommandWord (c d : Word) (s : State) : Result := writeFrame (frameCmdw c d) s

/-- A completed read loads `RXBUF[i]` for `i < n`, leaves the rest as it was, and sets `RXLEN` (10_state.md R19,
41_formatter.md R86). -/
def loadRx (b : List Byte) (s : State) : State :=
  { s with rxbuf := Vector.ofFn fun i => b.getD i.val s.rxbuf[i]
           rxlen := BitVec.ofNat 3 b.length }

/-- An accepted reading: both words in the same step, no error, `VALID` set (R16, R86). -/
def acceptReading (w0 w1 : Word) (s : State) : State :=
  { s with w0 := w0, w1 := w1, status := statusSetValid (statusSetErrors s.status false false) }

/-- What RESP does with the bytes of a completed read: load, decode, accept or discard (R85 to R87). -/
def finishRead (b : List Byte) (s : State) : State :=
  let d := decodeResp (cfgVariant s.cfg) (cfgCrcchk s.cfg) b
  if d.ok then respond .ok d.w1 d.w0 (acceptReading d.w0 d.w1 (loadRx b s))
  else raiseError .checksumMismatch s.w1 s.w0 (loadRx b s)

/-- One bus read of a whole response and its decoding, as RESP makes it (R86). -/
def readResponse (s : State) : Result :=
  let n := respLen (cfgVariant s.cfg)
  match s.answers with
  | [] => .fault .busStalled
  | a :: _ =>
    match memRead n a with
    | .fail => .next (raiseError .transportError s.w1 s.w0 (logEvent (.rd s.addr n .fail) s))
    | .bytes b => .next (finishRead b (logEvent (.rd s.addr n (.bytes b)) s))

/-- The write of `CFG` changes nothing else (R14, R100). -/
def writeCfg (v : BitVec 2) (s : State) : State := { s with cfg := v }

/-- Does the instruction call a bus primitive (R10, columns "written by" and "read by"; R82, R83, R86)? -/
def usesBus : Instr → Bool
  | .crc8 _ _ _ => false
  | .cmd _ _ => true
  | .cmdw _ _ => true
  | .resp _ => true
  | .cfgwr _ _ => false
  | .rdreg _ _ => false
  | .iaqInit _ => true
  | .measIaq _ => true
  | .measRaw _ => true
  | .setAh _ => true
  | .setBaseline _ => true
  | .wireIaqInit => true
  | .wireMeasIaq => true
  | .wireMeasRaw => true
  | .wireSetAh _ => true
  | .wireSetBaseline => true

/-- Does what stands at the port call a bus primitive? An undefined request does not (R60, R102). -/
def requestUsesBus (r : Request) : Bool :=
  match decode r with
  | .ok i => usesBus i
  | .error _ => false

/-- The block takes the request that stands first at the port (R41). -/
def takeRequest (s : State) : State := { s with reqs := s.reqs.tail }

/-- A request word with no meaning: only the answer IllegalRequest (42_system.md R102, R113). -/
def rejectRequest (_ : Reject) (s : State) : State := raiseError .illegalRequest 0 0 s

/-- Is a request in progress whose bus primitive has not returned (R31 outcome 3, R137)? -/
def stalled (s : State) : Bool :=
  match s.reqs with
  | [] => false
  | r :: _ => requestUsesBus r && s.answers.isEmpty

/-- The platform's block reset (70_reset_and_hazards.md R130): the registers as after power-on, a request in progress
abandoned without a response, no bus event; the history stays (R32), and so do the responses already presented, the
requests not yet taken and the transport's answers. The reset input is released (log entry 4). -/
def blockReset (s : State) : State :=
  { State.reset with
    hist := s.hist
    rsps := s.rsps
    reqs := if stalled s then s.reqs.tail else s.reqs
    answers := s.answers }

/-- No request stands at the port: the block waits (R130, R41; log entry 1). -/
def waitForRequest (s : State) : State := s

/-- A request put first at the port, with the reset input released, and, where the transport has no answer ready, one
answer that lets a bus access return (log entry 12). -/
def presentRequest (r : Request) (s : State) : State :=
  { s with
    reqs := r :: s.reqs
    answers := if s.answers.isEmpty then [.returns (List.replicate 6 0)] else s.answers
    resetIn := false }

end Sys2Proof.Machine
end

