-- ==== Sys2Proof/Machine/Crc8.lean ====
section
/-! DEFINITION. The CRC8 operation (40_crc8.md R74). -/

namespace Sys2Proof.Machine

/-- `CRC8 byte0, byte1`: the checksum in `D0`; no state, no bus event, no error (R74). -/
def execCrc8 (byte0 byte1 : Byte) (_ignored : BitVec 16) (s : State) : Result :=
  .next (respond .ok 0 ((crc8 byte0 byte1).setWidth 16) s)

end Sys2Proof.Machine
end

