-- ==== Sys2Proof/Machine/Formatter.lean ====
section
/-! DEFINITION. The operations that move bytes over the bus, the five commands' alias rows, and the five bare command
words (41_formatter.md R82, R83, R86, R88 to R92). -/

namespace Sys2Proof.Machine

/-- `CMD c` (R82); any command word is formatted (R61). -/
def execCmd (c : Word) (_ignored : BitVec 16) (s : State) : Result := sendCommand c s

/-- `CMDW c, d` (R83). -/
def execCmdw (c d : Word) (s : State) : Result := sendCommandWord c d s

/-- `RESP` (R86). -/
def execResp (_ignored : BitVec 32) (s : State) : Result := readResponse s

/-- `IAQ_INIT` = `CMD 0x2003` (R88). -/
def execIaqInit (_ignored : BitVec 16) (s : State) : Result := sendCommand 0x2003 s

/-- `MEAS_IAQ` = `CMD 0x2008` (R89). -/
def execMeasIaq (_ignored : BitVec 16) (s : State) : Result := sendCommand 0x2008 s

/-- `MEAS_RAW` = `CMD 0x2050` (R90). -/
def execMeasRaw (_ignored : BitVec 16) (s : State) : Result := sendCommand 0x2050 s

/-- `SET_AH d` = `CMDW 0x2061, d` (R91). -/
def execSetAh (d : Word) (s : State) : Result := sendCommandWord 0x2061 d s

/-- `SET_BASELINE` = `CMD 0x201E`, the bare command (R92, C5). -/
def execSetBaseline (_ignored : BitVec 16) (s : State) : Result := sendCommand 0x201E s

/-- The bare command word 0x2003: its frame is written as CMD writes it (R54, R88; log entry 7). -/
def execWireIaqInit (s : State) : Result := sendCommand 0x2003 s

/-- The bare command word 0x2008 (R54, R89; log entry 7). -/
def execWireMeasIaq (s : State) : Result := sendCommand 0x2008 s

/-- The bare command word 0x2050 (R54, R90; log entry 7). -/
def execWireMeasRaw (s : State) : Result := sendCommand 0x2050 s

/-- The bare command word 0x2061 with its data word: the 5-byte frame (R51, R54, R91; log entry 7). -/
def execWireSetAh (d : Word) (s : State) : Result := sendCommandWord 0x2061 d s

/-- The bare command word 0x201E (R54, R92; log entry 7). -/
def execWireSetBaseline (s : State) : Result := sendCommand 0x201E s

end Sys2Proof.Machine
end

