-- ==== Sys2Proof/Machine/System.lean ====
section
/-! DEFINITION. Configuration and register access (42_system.md R100, R101). -/

namespace Sys2Proof.Machine

/-- `CFGWR v`: `D0` is `CFG` after the write (R100). -/
def execCfgwr (v : BitVec 2) (_ignored : BitVec 30) (s : State) : Result :=
  .next (respond .ok 0 (v.setWidth 16) (writeCfg v s))

/-- `RDREG r`: the register's value, or IllegalRequest for a reserved index (R101). -/
def execRdreg (r : BitVec 4) (_ignored : BitVec 28) (s : State) : Result :=
  match regOfIndex r with
  | none => .next (raiseError .illegalRequest 0 0 s)
  | some x => .next (respond .ok 0 (readReg x s) s)

end Sys2Proof.Machine
end

