-- ==== Sys2Proof/Machine/Dispatch.lean ====
section
/-! DEFINITION. One arm per instruction. -/

namespace Sys2Proof.Machine

def exec (i : Instr) (s : State) : Host.Outcome State Fault Refusal :=
  match i with
  | .crc8 byte0 byte1 ignored => Sys2Proof.Machine.execCrc8 byte0 byte1 ignored s
  | .cmd c ignored => Sys2Proof.Machine.execCmd c ignored s
  | .cmdw c d => Sys2Proof.Machine.execCmdw c d s
  | .resp ignored => Sys2Proof.Machine.execResp ignored s
  | .cfgwr v ignored => Sys2Proof.Machine.execCfgwr v ignored s
  | .rdreg r ignored => Sys2Proof.Machine.execRdreg r ignored s
  | .iaqInit ignored => Sys2Proof.Machine.execIaqInit ignored s
  | .measIaq ignored => Sys2Proof.Machine.execMeasIaq ignored s
  | .measRaw ignored => Sys2Proof.Machine.execMeasRaw ignored s
  | .setAh d => Sys2Proof.Machine.execSetAh d s
  | .setBaseline ignored => Sys2Proof.Machine.execSetBaseline ignored s
  | .wireIaqInit => Sys2Proof.Machine.execWireIaqInit s
  | .wireMeasIaq => Sys2Proof.Machine.execWireMeasIaq s
  | .wireMeasRaw => Sys2Proof.Machine.execWireMeasRaw s
  | .wireSetAh d => Sys2Proof.Machine.execWireSetAh d s
  | .wireSetBaseline => Sys2Proof.Machine.execWireSetBaseline s

end Sys2Proof.Machine
end

