-- ==== Sys2Proof/Machine/Step.lean ====
section
/-! DEFINITION. One step of the machine: a block reset, a wait, or one request performed to completion
(00_scope.md R6, R9, 20_memory.md R41, 70_reset_and_hazards.md R130). -/

namespace Sys2Proof.Machine

/-- One step. The reset input comes first (R130); with no request the block waits; a request is taken, decoded and
performed whole (R41); an undefined one is answered IllegalRequest (R102). -/
def step (s : State) : Host.Outcome State Fault Refusal :=
  if s.resetIn then .next (blockReset s)
  else
    match s.reqs with
    | [] => .next (waitForRequest s)
    | r :: _ =>
      match decode r with
      | .ok i => exec i (takeRequest s)
      | .error e => .next (rejectRequest e (takeRequest s))

/-- An opcode-table row's bits placed where `step` takes its next request (log entry 12). -/
def State.withFetchWord (s : State) (nbits w : Nat) : State :=
  match tableRequest nbits w with
  | none => s
  | some r => presentRequest r s

end Sys2Proof.Machine
end

