-- ==== Sys2Proof/Safety.lean ====
section
/-! DEFINITION. The terms claims use: the invariant of the machine's states, the premise TransportFailsFast (20_memory.md
R30), which parts of a state two runs may be compared on, and the host obligations (70_reset_and_hazards.md R133 to R141,
20_memory.md R44) as a check on a host's trace. Nothing here is read by `step`. -/

namespace Sys2Proof.Machine

/-- An event the block can cause: only address 0x58, only the frame and response lengths of R37 (R40, R31). -/
def BusEvent.legal : BusEvent → Bool
  | .wr a v _ => a == devAddr && (v.length == 2 || v.length == 5)
  | .rd a n .fail => a == devAddr && (n == 4 || n == 6)
  | .rd a n (.bytes b) => a == devAddr && (n == 4 || n == 6) && b.length == n

/-- Did the event's bus primitive return `fail`? -/
def BusEvent.failed : BusEvent → Bool
  | .wr _ _ .fail => true
  | .wr _ _ .ok => false
  | .rd _ _ .fail => true
  | .rd _ _ (.bytes _) => false

/-- The bytes of a completed read. -/
def BusEvent.readBytes : BusEvent → Option (List Byte)
  | .wr _ _ _ => none
  | .rd _ _ .fail => none
  | .rd _ _ (.bytes b) => some b

/-- The bytes of the most recent completed read of a history (oldest event first). -/
def lastRead : List BusEvent → Option (List Byte)
  | [] => none
  | e :: es =>
    match lastRead es with
    | some b => some b
    | none => e.readBytes

/-- Is `w` a response word with one of the four status codes (30_encoding.md R57)? -/
def rspLegal (w : BitVec 40) : Bool := (w.extractLsb' 32 8).toNat ≤ 3

/-- `w0`, `w1` are the two words of one completed read of the history, decoded in one layout, and were presented
together in a response with status OK (60_exceptions.md R124). -/
def IsAcceptedReading (hist : List BusEvent) (rsps : List (BitVec 40)) (w0 w1 : Word) : Prop :=
  ∃ (variant : Variant) (b : List Byte),
    BusEvent.rd devAddr (respLen variant) (.bytes b) ∈ hist ∧
    (decodeResp variant false b).w0 = w0 ∧ (decodeResp variant false b).w1 = w1 ∧
    rspWord .ok w1 w0 ∈ rsps

/-- What holds of every state the machine reaches. -/
structure State.Inv (s : State) : Prop where
  /-- TERR and CERR are never both 1 (R15, R116). -/
  oneError : ¬(statusTerr s.status = true ∧ statusCerr s.status = true)
  /-- TERR says that the most recent bus operation's primitive failed (R15). -/
  terrLast : statusTerr s.status = true → ∃ e, s.hist.getLast? = some e ∧ e.failed = true
  /-- CERR says that the most recent bus operation was a read of 6 bytes with an invalid CRC byte (R15, R112). -/
  cerrLast : statusCerr s.status = true →
    ∃ b, s.hist.getLast? = some (.rd devAddr 6 (.bytes b)) ∧ (decodeResp .A true b).ok = false
  /-- While VALID is 0, W0 and W1 hold their reset value (R15, R124). -/
  noReading : statusValid s.status = false → s.w0 = 0 ∧ s.w1 = 0
  /-- While VALID is 1, W0 and W1 are the words of one accepted response (R124). -/
  reading : statusValid s.status = true → IsAcceptedReading s.hist s.rsps s.w0 s.w1
  /-- RXLEN is 0, 4 or 6 (R19). -/
  rxlenLegal : s.rxlen = 0 ∨ s.rxlen = 4 ∨ s.rxlen = 6
  /-- RXBUF holds the bytes of the most recent completed read, RXLEN of them (R19). -/
  rxHolds : s.rxlen ≠ 0 → ∃ b, lastRead s.hist = some b ∧ b.length = s.rxlen.toNat ∧
    ∀ i : Fin 6, i.val < b.length → b[i.val]? = some s.rxbuf[i]
  /-- Every bus event is one the block can cause (R37, R40). -/
  histLegal : ∀ e ∈ s.hist, e.legal = true
  /-- Every response carries one of the four codes (R57). -/
  rspsLegal : ∀ w ∈ s.rsps, rspLegal w = true

/-- How many of the presented requests call a bus primitive. -/
def busCalls : List Request → Nat
  | [] => 0
  | r :: rs => (if requestUsesBus r then 1 else 0) + busCalls rs

/-- The premise `TransportFailsFast` of R30, "every bus primitive returns", for the requests that stand at the port: the
transport has an answer for each call of a bus primitive they make (log entry 2). Requests that make none need none. -/
def TransportFailsFast (s : State) : Prop :=
  busCalls s.reqs ≤ s.answers.length

/-- The status codes an operation can answer with (R57, column "ST values possible"). -/
def rspCodeAllowed : Instr → RspCode → Bool
  | .crc8 _ _ _, c => c == .ok
  | .cfgwr _ _, c => c == .ok
  | .rdreg _ _, c => c == .ok || c == .illegalRequest
  | .resp _, c => c == .ok || c == .transportError || c == .checksumMismatch
  | .cmd _ _, c => c == .ok || c == .transportError
  | .cmdw _ _, c => c == .ok || c == .transportError
  | .iaqInit _, c => c == .ok || c == .transportError
  | .measIaq _, c => c == .ok || c == .transportError
  | .measRaw _, c => c == .ok || c == .transportError
  | .setAh _, c => c == .ok || c == .transportError
  | .setBaseline _, c => c == .ok || c == .transportError
  | .wireIaqInit, c => c == .ok || c == .transportError
  | .wireMeasIaq, c => c == .ok || c == .transportError
  | .wireMeasRaw, c => c == .ok || c == .transportError
  | .wireSetAh _, c => c == .ok || c == .transportError
  | .wireSetBaseline, c => c == .ok || c == .transportError

/-- The result fields `(D1, D0)` of a response to `i` with code `c`, where `t` is the state after the operation (R57, the
table's columns D1 and D0). -/
def rspFields (i : Instr) (c : RspCode) (t : State) : Word × Word :=
  match i with
  | .crc8 byte0 byte1 _ => (0, (crc8 byte0 byte1).setWidth 16)
  | .resp _ => (t.w1, t.w0)
  | .cfgwr _ _ => (0, t.cfg.setWidth 16)
  | .rdreg r _ =>
    match c, regOfIndex r with
    | .ok, some x => (0, readReg x t)
    | _, _ => (0, 0)
  | .cmd _ _ => (0, 0)
  | .cmdw _ _ => (0, 0)
  | .iaqInit _ => (0, 0)
  | .measIaq _ => (0, 0)
  | .measRaw _ => (0, 0)
  | .setAh _ => (0, 0)
  | .setBaseline _ => (0, 0)
  | .wireIaqInit => (0, 0)
  | .wireMeasIaq => (0, 0)
  | .wireMeasRaw => (0, 0)
  | .wireSetAh _ => (0, 0)
  | .wireSetBaseline => (0, 0)

/-! ### The host's obligations (DESIGN CHOICE, log entry 15) -/

/-- What a host does: wait (`PAUSE ms`, a host directive that CRCFMT does not see, R62), present a request and receive
its response's status, or decide that it means its next RESP to use whatever layout CFG then selects (R139's exception;
nothing the block sees). -/
inductive HostAction where
  | pause (ms : Nat)
  | meansNewLayout
  | request (r : Request) (st : RspCode)
deriving DecidableEq, Repr

/-- The requests of a host's trace: what the block sees of it (R62). -/
def hostRequests : List HostAction → List Request
  | [] => []
  | .pause _ :: as => hostRequests as
  | .meansNewLayout :: as => hostRequests as
  | .request r _ :: as => r :: hostRequests as

/-- The command word a write operation sends, and whether a data word follows it. -/
def busCommand : Instr → Option (Word × Bool)
  | .crc8 _ _ _ => none
  | .cmd c _ => some (c, false)
  | .cmdw c _ => some (c, true)
  | .resp _ => none
  | .cfgwr _ _ => none
  | .rdreg _ _ => none
  | .iaqInit _ => some (0x2003, false)
  | .measIaq _ => some (0x2008, false)
  | .measRaw _ => some (0x2050, false)
  | .setAh _ => some (0x2061, true)
  | .setBaseline _ => some (0x201E, false)
  | .wireIaqInit => some (0x2003, false)
  | .wireMeasIaq => some (0x2008, false)
  | .wireMeasRaw => some (0x2050, false)
  | .wireSetAh _ => some (0x2061, true)
  | .wireSetBaseline => some (0x201E, false)

/-- What a host must remember to keep its obligations. -/
structure HostTrack where
  /-- IAQ_INIT was written with success (R133). -/
  inited : Bool
  /-- Milliseconds of burn-in still owed before a measurement (R133). -/
  burnin : Nat
  /-- Milliseconds still owed before the next bus request (R134, R135). -/
  owed : Nat
  /-- A measurement was commanded and its RESP is still to come (R141). -/
  reading : Bool
  /-- `CFG.VARIANT` as the host last wrote it (R139). -/
  variant : Variant
  /-- The next RESP is meant to use whatever layout CFG then selects (R139). -/
  meant : Bool
deriving DecidableEq, Repr

/-- Right after reset (R23: variant A), before anything was done. -/
def HostTrack.start : HostTrack :=
  { inited := false, burnin := 0, owed := 0, reading := false, variant := .A, meant := false }

/-- May a host that keeps its obligations present this command now? (R44, R133, R135, R141) -/
def hostMayCommand (t : HostTrack) (c : Word × Bool) : Bool :=
  !t.reading && t.owed == 0 &&
    (if c = (0x2003, false) then !t.inited
     else if c = (0x2008, false) || c = (0x2050, false) then t.inited && t.burnin == 0
     else true)

/-- What the host owes after the command (R133 to R135, R140; after SET_AH the open parameter of U16). -/
def hostAfterCommand (d : Config.HostDelays) (t : HostTrack) (c : Word × Bool) (st : RspCode) : HostTrack :=
  if c = (0x2003, false) then
    if st = .ok then { t with inited := true, burnin := d.tBurninMs, owed := d.tCmdMs }
    else { t with owed := d.tCmdMs }
  else if c = (0x201E, false) then { t with owed := d.tCmdMs }
  else if c = (0x2061, true) then { t with owed := d.tAhMs }
  else if st = .ok then
    if c = (0x2008, false) then { t with reading := true, owed := d.tMeasMs }
    else if c = (0x2050, false) then { t with reading := true, owed := d.tRawMs }
    else t
  else t

/-- A write operation of a host that keeps its obligations; `none` where it breaks one. -/
def hostCommand (d : Config.HostDelays) (t : HostTrack) (c : Word × Bool) (st : RspCode) : Option HostTrack :=
  if hostMayCommand t c then some (hostAfterCommand d t c st) else none

/-- One instruction of a host that keeps its obligations; `none` where it breaks one. RESP only after a measurement
command, once, after the conversion time (R134, R141); between the two no CFGWR that changes VARIANT, unless the host means
the RESP to use the new layout (R139). -/
def hostInstr (d : Config.HostDelays) (t : HostTrack) (st : RspCode) : Instr → Option HostTrack
  | .crc8 _ _ _ => some t
  | .rdreg _ _ => some t
  | .resp _ => if t.reading && t.owed == 0 then some { t with reading := false, meant := false } else none
  | .cfgwr v _ => if t.reading && !t.meant && cfgVariant v != t.variant then none else some { t with variant := cfgVariant v }
  | .cmd c _ => hostCommand d t (c, false) st
  | .cmdw c _ => hostCommand d t (c, true) st
  | .iaqInit _ => hostCommand d t (0x2003, false) st
  | .measIaq _ => hostCommand d t (0x2008, false) st
  | .measRaw _ => hostCommand d t (0x2050, false) st
  | .setAh _ => hostCommand d t (0x2061, true) st
  | .setBaseline _ => hostCommand d t (0x201E, false) st
  | .wireIaqInit => hostCommand d t (0x2003, false) st
  | .wireMeasIaq => hostCommand d t (0x2008, false) st
  | .wireMeasRaw => hostCommand d t (0x2050, false) st
  | .wireSetAh _ => hostCommand d t (0x2061, true) st
  | .wireSetBaseline => hostCommand d t (0x201E, false) st

/-- One action of a host that keeps its obligations. -/
def hostAct (d : Config.HostDelays) (t : HostTrack) : HostAction → Option HostTrack
  | .pause ms => some { t with burnin := t.burnin - ms, owed := t.owed - ms }
  | .meansNewLayout => some { t with meant := true }
  | .request r st =>
    match decode r with
    | .ok i => hostInstr d t st i
    | .error _ => some t

/-- A whole trace, oldest action first. -/
def hostTrace (d : Config.HostDelays) : HostTrack → List HostAction → Option HostTrack
  | t, [] => some t
  | t, a :: as =>
    match hostAct d t a with
    | some t' => hostTrace d t' as
    | none => none

/-- Does the host keep its obligations on this trace? The trace is what the host has done so far, so it may end with a
measurement whose RESP, R141's one, is still to come: at most one RESP per measurement is checked (DESIGN CHOICE, log
entry 15). -/
def hostObeys (d : Config.HostDelays) (tr : List HostAction) : Bool :=
  (hostTrace d HostTrack.start tr).isSome

/-- The milliseconds waited in a trace. -/
def hostPauses : List HostAction → Nat
  | [] => 0
  | .pause ms :: as => ms + hostPauses as
  | .meansNewLayout :: as => hostPauses as
  | .request _ _ :: as => hostPauses as

/-- Does the action cause a bus event? -/
def HostAction.usesBus : HostAction → Bool
  | .pause _ => false
  | .meansNewLayout => false
  | .request r _ => requestUsesBus r

/-- The `CFG.VARIANT` an action leaves, where it was `v` before (R12, R100). -/
def HostAction.variantAfter (v : Variant) : HostAction → Variant
  | .pause _ => v
  | .meansNewLayout => v
  | .request r _ =>
    match decode r with
    | .ok (.cfgwr c _) => cfgVariant c
    | _ => v

/-- `CFG.VARIANT` after a trace that starts right after reset (R23). -/
def hostVariant (tr : List HostAction) : Variant := tr.foldl HostAction.variantAfter .A

/-- Is the action a RESP? -/
def HostAction.isResp : HostAction → Bool
  | .pause _ => false
  | .meansNewLayout => false
  | .request r _ =>
    match decode r with
    | .ok (.resp _) => true
    | _ => false

end Sys2Proof.Machine
end

