-- ==== Sys2Proof/Certificates/Slice0/Obligations.lean ====
section
/-! DEFINITION. The statements for the provers. Each docstring names the rule of spec/ it formalises. -/

open Sys2Proof Sys2Proof.Machine Sys2Proof.Config

/-! ## Encodings -/

/-- R56, R58, R59, R63, R54: every well-formed instruction, with every operand value and every ignored bit, is read back
from its encoding. Rests on the model's reading of the alias and wire rows (log entries 6, 7, 8). -/
def Obligations.DecodeOfEncodeIsInstr : Prop :=
  ∀ i : Instr, i.wf = true → decode (encode i) = .ok i

/-- R56, R58, R59, R60, R63: every request word the decoder accepts is the encoding of the instruction it reads, which is
well-formed; so no request word has two readings and no bit is dropped. The word formats are the spec's own decisions D2 and D3.
That the ignored operand bits are kept in the syntax, so that a word with other than zeros there comes back too, and that an
alias row takes precedence are the model's choices (log entries 8 and 6). -/
def Obligations.EncodeOfDecodedRequestWord : Prop :=
  ∀ (w : BitVec 40) (i : Instr), decode (.req w) = .ok i → encode i = .req w ∧ i.wf = true

/-- R58, R60: the decoder rejects exactly the request words whose OP (bits 39:32) is 0x00 or 0x07 to 0xFF, and rejects
them by that OP (the spec's own decision D15). -/
def Obligations.ExactlyUndefinedOpRejected : Prop :=
  ∀ (w : BitVec 40) (op : BitVec 8), decode (.req w) = .error (.undefinedOp op) ↔
    op.toNat = w.toNat / 2 ^ 32 ∧ (op.toNat = 0 ∨ 7 ≤ op.toNat)

/-- R58, R62, R63, R54: words written out from the spec's tables decode to the instruction they stand for. That the five
pseudo-instructions' words take the alias's name and not CMD's or CMDW's, and that a bare command word stands at the port, are
the model's choices (log entries 6 and 7). -/
def Obligations.SpecWordsDecode : Prop :=
  decode (.req 0x01BEEF0000) = .ok (.crc8 0xBE 0xEF 0) ∧
  decode (.req 0x02BEEF0000) = .ok (.cmd 0xBEEF 0) ∧
  decode (.req 0x0312340190) = .ok (.cmdw 0x1234 0x0190) ∧
  decode (.req 0x04DEADBEEF) = .ok (.resp 0xDEADBEEF) ∧
  decode (.req 0x0500000002) = .ok (.cfgwr 2 0) ∧
  decode (.req 0x060000000A) = .ok (.rdreg 10 0) ∧
  decode (.req 0x0220030000) = .ok (.iaqInit 0) ∧
  decode (.req 0x0220080000) = .ok (.measIaq 0) ∧
  decode (.req 0x0220500000) = .ok (.measRaw 0) ∧
  decode (.req 0x0320610B7C) = .ok (.setAh 0x0B7C) ∧
  decode (.req 0x02201E0000) = .ok (.setBaseline 0) ∧
  decode (.wire 0x2003 none) = .ok .wireIaqInit ∧
  decode (.wire 0x2061 (some 0x0B7C)) = .ok (.wireSetAh 0x0B7C)

/-- R63: each pseudo-instruction's request word, and that it does exactly what the CMD or CMDW it expands to does. -/
def Obligations.PseudoInstructionsExpand : Prop :=
  (assemble (.iaqInit 0) = .req 0x0220030000 ∧ assemble (.measIaq 0) = .req 0x0220080000 ∧
    assemble (.measRaw 0) = .req 0x0220500000 ∧ assemble (.setBaseline 0) = .req 0x02201E0000 ∧
    ∀ d : Word, assemble (.setAh d) = .req (0x03#8 ++ 0x2061#16 ++ d)) ∧
  ∀ (x : BitVec 16) (d : Word) (s : State),
    exec (.iaqInit x) s = exec (.cmd 0x2003 x) s ∧ exec (.measIaq x) s = exec (.cmd 0x2008 x) s ∧
    exec (.measRaw x) s = exec (.cmd 0x2050 x) s ∧ exec (.setAh d) s = exec (.cmdw 0x2061 d) s ∧
    exec (.setBaseline x) s = exec (.cmd 0x201E x) s

/-- R59 (f), R62, R63: an operand bit that an operation does not use does not change what it does, and the assembler emits
zeros there: the words of R62's and R63's tables (the spec's own decision D15). -/
def Obligations.IgnoredOperandBitsChangeNothing : Prop :=
  (∀ (i : Instr) (s : State), exec i s = exec i.assembled s ∧ assemble i = encode i.assembled) ∧
  (∀ (b0 b1 : Byte) (x : BitVec 16), assemble (.crc8 b0 b1 x) = .req (0x01#8 ++ b0 ++ b1 ++ 0x0000#16)) ∧
  (∀ (c : Word) (x : BitVec 16), assemble (.cmd c x) = .req (0x02#8 ++ c ++ 0x0000#16)) ∧
  (∀ c d : Word, assemble (.cmdw c d) = .req (0x03#8 ++ c ++ d)) ∧
  (∀ x : BitVec 32, assemble (.resp x) = .req (0x04#8 ++ 0x0000#16 ++ 0x0000#16)) ∧
  (∀ (v : BitVec 2) (x : BitVec 30), assemble (.cfgwr v x) = .req (0x05#8 ++ 0x0000#16 ++ (0#14 ++ v))) ∧
  (∀ (r : BitVec 4) (x : BitVec 28), assemble (.rdreg r x) = .req (0x06#8 ++ 0x0000#16 ++ (0#12 ++ r))) ∧
  (∀ x : BitVec 16, assemble (.iaqInit x) = .req (0x02#8 ++ 0x2003#16 ++ 0x0000#16) ∧
    assemble (.measIaq x) = .req (0x02#8 ++ 0x2008#16 ++ 0x0000#16) ∧
    assemble (.measRaw x) = .req (0x02#8 ++ 0x2050#16 ++ 0x0000#16) ∧
    assemble (.setBaseline x) = .req (0x02#8 ++ 0x201E#16 ++ 0x0000#16)) ∧
  (∀ d : Word, assemble (.setAh d) = .req (0x03#8 ++ 0x2061#16 ++ d))

/-! ## The CRC-8 engine -/

/-- R70, R71, R72: one shift iteration, absorbing a byte, and the checksum of two bytes. -/
def Obligations.Crc8Functions : Prop :=
  (∀ c : Byte, crc8Bit c = if c.getLsbD 7 = true then (c <<< 1) ^^^ 0x31#8 else c <<< 1) ∧
  (∀ c b : Byte, crc8Byte c b =
    crc8Bit (crc8Bit (crc8Bit (crc8Bit (crc8Bit (crc8Bit (crc8Bit (crc8Bit (c ^^^ b))))))))) ∧
  (∀ b0 b1 : Byte, crc8 b0 b1 = crc8Byte (crc8Byte 0xFF b0) b1)

/-- R75: a received CRC byte is valid exactly when it equals the checksum of the two bytes before it. -/
def Obligations.CrcOkIffEqual : Prop :=
  ∀ hi lo c : Byte, crcOk hi lo c = true ↔ c = crc8 hi lo

/-- R76, which the spec marks as derived: the printed table is the eight-fold shift, the checksum is two table steps, the
table is a bijection, and any single-byte change in either data byte changes the checksum. -/
def Obligations.Crc8TableForm : Prop :=
  crcTable.length = 256 ∧ (∀ x : Byte, crcTable[x.toNat]? = some (crc8Shift8 x)) ∧
  (∀ c b : Byte, crc8Byte c b = crc8Shift8 (c ^^^ b)) ∧
  (∀ b0 b1 : Byte, crc8 b0 b1 = crc8Shift8 (crc8Shift8 (0xFF ^^^ b0) ^^^ b1)) ∧
  Function.Bijective crc8Shift8 ∧
  (∀ b0 : Byte, Function.Bijective (crc8 b0)) ∧
  (∀ b0 b0' b1 : Byte, b0 ≠ b0' → crc8 b0 b1 ≠ crc8 b0' b1)

/-- R73, 90_conflicts.md C6: DOC0's literal loop, which shifts without masking and masks once at the end, gives the same
checksum, because bits 7 to 0 of the unmasked value agree with the 8-bit value after every number of iterations (an agreement
the spec marks as derived; "top bit" as bit 7 is its decision D12). -/
def Obligations.UnmaskedLoopAgrees : Prop :=
  (∀ (n c : Nat), crc8WideBits n c % 256 = (Nat.iterate crc8Bit n (BitVec.ofNat 8 c)).toNat) ∧
  ∀ b0 b1 : Byte, crc8Wide b0 b1 = (crc8 b0 b1).toNat

/-- R74: CRC8 answers OK with the checksum of its two bytes in D0, for every operand and state; nothing else changes. The
checksum is 0x00 for exactly one second byte of each first byte, and 0x81 of two zero bytes. -/
def Obligations.Crc8Result : Prop :=
  ∀ (byte0 byte1 : Byte) (b : BitVec 16) (s : State),
    encode (.crc8 byte0 byte1 b) = .req (0x01#8 ++ byte0 ++ byte1 ++ b) ∧
    exec (.crc8 byte0 byte1 b) s =
      .next { s with rsps := s.rsps ++ [0x00#8 ++ 0x0000#16 ++ 0x00#8 ++ crc8 byte0 byte1] } ∧
    (crc8 byte0 byte1 = 0x00 ↔ byte1 = crc8Shift8 (0xFF ^^^ byte0)) ∧ crc8 0x00 0x00 = 0x81

/-! ## Frames and response layouts -/

/-- R80, R81: the bytes of the two frames; with R33, R34's byte order. -/
def Obligations.FrameBytes : Prop :=
  ∀ ch cl dh dl : Byte,
    frameCmd (ch ++ cl) = [ch, cl] ∧ frameCmdw (ch ++ cl) (dh ++ dl) = [ch, cl, dh, dl, crc8 dh dl]

/-- R84, R85: the lengths of the two response layouts, and what decoding a response buffer gives. -/
def Obligations.ResponseLayouts : Prop :=
  respLen .A = 6 ∧ respLen .B = 4 ∧
  (∀ (chk : Bool) (h0 l0 c0 h1 l1 c1 : Byte), decodeResp .A chk [h0, l0, c0, h1, l1, c1] =
    { w0 := h0 ++ l0, w1 := h1 ++ l1, ok := !chk || (crcOk h0 l0 c0 && crcOk h1 l1 c1) }) ∧
  (∀ (chk : Bool) (h0 l0 h1 l1 : Byte), decodeResp .B chk [h0, l0, h1, l1] =
    { w0 := h0 ++ l0, w1 := h1 ++ l1, ok := true })

/-! ## What each operation does -/

/-- R82: CMD writes the 2-byte frame of any command word to ADDR as one transaction. It answers OK or TransportError as
the primitive returns, rewrites TERR and CERR, and changes nothing else. -/
def Obligations.CmdResult : Prop :=
  ∀ (c : Word) (b : BitVec 16) (s : State),
    encode (.cmd c b) = .req (0x02#8 ++ c ++ b) ∧
    (∀ supply rest, s.answers = .returns supply :: rest → exec (.cmd c b) s = .next { s with
      hist := s.hist ++ [.wr s.addr [hi8 c, lo8 c] .ok]
      status := statusWord (statusValid s.status) false false
      rsps := s.rsps ++ [0x0000000000#40], answers := rest }) ∧
    (∀ rest, s.answers = .fails :: rest → exec (.cmd c b) s = .next { s with
      hist := s.hist ++ [.wr s.addr [hi8 c, lo8 c] .fail]
      status := statusWord (statusValid s.status) false true
      rsps := s.rsps ++ [0x0100000000#40], answers := rest })

/-- R83: CMDW writes the 5-byte frame of any command word and any data word, with the checksum of the data word, as one
transaction; otherwise as CMD. That any command word and any data word is accepted is the spec's own decision D29. -/
def Obligations.CmdwResult : Prop :=
  ∀ (c d : Word) (s : State),
    encode (.cmdw c d) = .req (0x03#8 ++ c ++ d) ∧
    (∀ supply rest, s.answers = .returns supply :: rest → exec (.cmdw c d) s = .next { s with
      hist := s.hist ++ [.wr s.addr [hi8 c, lo8 c, hi8 d, lo8 d, crc8 (hi8 d) (lo8 d)] .ok]
      status := statusWord (statusValid s.status) false false
      rsps := s.rsps ++ [0x0000000000#40], answers := rest }) ∧
    (∀ rest, s.answers = .fails :: rest → exec (.cmdw c d) s = .next { s with
      hist := s.hist ++ [.wr s.addr [hi8 c, lo8 c, hi8 d, lo8 d, crc8 (hi8 d) (lo8 d)] .fail]
      status := statusWord (statusValid s.status) false true
      rsps := s.rsps ++ [0x0100000000#40], answers := rest })

/-- R88, R89, R90, R92: the four 2-byte device commands, as pseudo-instructions and as bare command words (the latter the
model's reading, log entry 7): the frame that goes out, and both results. -/
def Obligations.DeviceCommandResults : Prop :=
  ∀ (x : BitVec 16) (s : State) (p : Instr × List Byte),
    p ∈ [(Instr.iaqInit x, [0x20#8, 0x03#8]), (Instr.measIaq x, [0x20#8, 0x08#8]),
      (Instr.measRaw x, [0x20#8, 0x50#8]), (Instr.setBaseline x, [0x20#8, 0x1E#8]),
      (Instr.wireIaqInit, [0x20#8, 0x03#8]), (Instr.wireMeasIaq, [0x20#8, 0x08#8]),
      (Instr.wireMeasRaw, [0x20#8, 0x50#8]), (Instr.wireSetBaseline, [0x20#8, 0x1E#8])] →
    (∀ supply rest, s.answers = .returns supply :: rest → exec p.1 s = .next { s with
      hist := s.hist ++ [.wr s.addr p.2 .ok]
      status := statusWord (statusValid s.status) false false
      rsps := s.rsps ++ [0x0000000000#40], answers := rest }) ∧
    (∀ rest, s.answers = .fails :: rest → exec p.1 s = .next { s with
      hist := s.hist ++ [.wr s.addr p.2 .fail]
      status := statusWord (statusValid s.status) false true
      rsps := s.rsps ++ [0x0100000000#40], answers := rest })

/-- R91: the humidity command with its data word, as pseudo-instruction and as bare command word (the latter the model's
reading, log entry 7). -/
def Obligations.SetHumidityResults : Prop :=
  ∀ (d : Word) (s : State) (i : Instr), i ∈ [Instr.setAh d, Instr.wireSetAh d] →
    (∀ supply rest, s.answers = .returns supply :: rest → exec i s = .next { s with
      hist := s.hist ++ [.wr s.addr [0x20#8, 0x61#8, hi8 d, lo8 d, crc8 (hi8 d) (lo8 d)] .ok]
      status := statusWord (statusValid s.status) false false
      rsps := s.rsps ++ [0x0000000000#40], answers := rest }) ∧
    (∀ rest, s.answers = .fails :: rest → exec i s = .next { s with
      hist := s.hist ++ [.wr s.addr [0x20#8, 0x61#8, hi8 d, lo8 d, crc8 (hi8 d) (lo8 d)] .fail]
      status := statusWord (statusValid s.status) false true
      rsps := s.rsps ++ [0x0100000000#40], answers := rest })

/-- R86: RESP reads `resp_len` bytes and decodes them. An accepted reading writes RXBUF, RXLEN, W0, W1 and all of STATUS;
a discarded one RXBUF, RXLEN, TERR and CERR; a failed read (a supply that is too short among them, R31) TERR and CERR only;
a read that has not returned has no step. The response carries W0 and W1 as they stand after the operation. How the
transport's answer is held, what a short or a long supply gives, and that a missing answer stands for R31's outcome 3 are the
model's (log entries 2 and 3, from R31). -/
def Obligations.RespResult : Prop :=
  ∀ (x : BitVec 32) (s : State) (n : Nat), n = respLen (cfgVariant s.cfg) →
    encode (.resp x) = .req (0x04#8 ++ x) ∧
    (∀ a rest, s.answers = a :: rest → (a = .fails ∨ ∃ supply, a = .returns supply ∧ supply.length < n) →
      exec (.resp x) s = .next { s with
        hist := s.hist ++ [.rd s.addr n .fail]
        status := statusWord (statusValid s.status) false true
        rsps := s.rsps ++ [0x01#8 ++ s.w1 ++ s.w0], answers := rest }) ∧
    (∀ supply rest, s.answers = .returns supply :: rest → n ≤ supply.length →
      (decodeResp (cfgVariant s.cfg) (cfgCrcchk s.cfg) (supply.take n)).ok = true →
      exec (.resp x) s = .next { s with
        hist := s.hist ++ [.rd s.addr n (.bytes (supply.take n))]
        rxbuf := Vector.ofFn fun i => if i.val < n then byteAt supply i.val else s.rxbuf[i]
        rxlen := BitVec.ofNat 3 n
        w0 := (decodeResp (cfgVariant s.cfg) (cfgCrcchk s.cfg) (supply.take n)).w0
        w1 := (decodeResp (cfgVariant s.cfg) (cfgCrcchk s.cfg) (supply.take n)).w1
        status := statusWord true false false
        rsps := s.rsps ++ [0x00#8 ++ (decodeResp (cfgVariant s.cfg) (cfgCrcchk s.cfg) (supply.take n)).w1 ++
          (decodeResp (cfgVariant s.cfg) (cfgCrcchk s.cfg) (supply.take n)).w0]
        answers := rest }) ∧
    (∀ supply rest, s.answers = .returns supply :: rest → n ≤ supply.length →
      (decodeResp (cfgVariant s.cfg) (cfgCrcchk s.cfg) (supply.take n)).ok = false →
      exec (.resp x) s = .next { s with
        hist := s.hist ++ [.rd s.addr n (.bytes (supply.take n))]
        rxbuf := Vector.ofFn fun i => if i.val < n then byteAt supply i.val else s.rxbuf[i]
        rxlen := BitVec.ofNat 3 n
        status := statusWord (statusValid s.status) true false
        rsps := s.rsps ++ [0x02#8 ++ s.w1 ++ s.w0], answers := rest }) ∧
    (s.answers = [] → exec (.resp x) s = .fault .busStalled)

/-- R87: in strict mode with variant A (CFG = 0b10) a completed read is accepted, answered OK, exactly when both CRC bytes
are valid, and otherwise W0 and W1 both keep their values; under every other CFG every completed read is accepted. That one
bad word discards both is the spec's own decision D8. The next state and the response are R86's; that a supply of n or more bytes
is a completed read of its first n is R31 with the spec's own decision D28, in the model's form of an answer (log entry 2). -/
def Obligations.ValidationPolicy : Prop :=
  ∀ (x : BitVec 32) (s : State) (supply : List Byte) (rest : List BusAnswer),
    s.answers = .returns supply :: rest → respLen (cfgVariant s.cfg) ≤ supply.length →
    ∃ t, exec (.resp x) s = .next t ∧
      (s.cfg = 0b10#2 →
        ((crcOk (byteAt supply 0) (byteAt supply 1) (byteAt supply 2) = true ∧
          crcOk (byteAt supply 3) (byteAt supply 4) (byteAt supply 5) = true) ↔
            t.rsps = s.rsps ++ [rspWord .ok t.w1 t.w0]) ∧
        (crcOk (byteAt supply 0) (byteAt supply 1) (byteAt supply 2) = false ∨
          crcOk (byteAt supply 3) (byteAt supply 4) (byteAt supply 5) = false → t.w0 = s.w0 ∧ t.w1 = s.w1)) ∧
      (s.cfg ≠ 0b10#2 → t.rsps = s.rsps ++ [rspWord .ok t.w1 t.w0])

/-- R112: the effect of a checksum mismatch, on any six bytes of which byte 2 or byte 5 is wrong, in strict variant A; and
nothing else raises it. The event and the response are R86's. Bytes offered beyond the sixth leave no trace: R31, the spec's own
decision D28, in the model's form of an answer (log entry 2). -/
def Obligations.ChecksumMismatchEffect : Prop :=
  (∀ (x : BitVec 32) (s : State) (b0 b1 b2 b3 b4 b5 : Byte) (more : List Byte) (rest : List BusAnswer),
    s.cfg = 0b10#2 → s.answers = .returns (b0 :: b1 :: b2 :: b3 :: b4 :: b5 :: more) :: rest →
    (b2 ≠ crc8 b0 b1 ∨ b5 ≠ crc8 b3 b4) →
    exec (.resp x) s = .next { s with
      hist := s.hist ++ [.rd s.addr 6 (.bytes [b0, b1, b2, b3, b4, b5])]
      rxbuf := #v[b0, b1, b2, b3, b4, b5], rxlen := 6
      status := statusWord (statusValid s.status) true false
      rsps := s.rsps ++ [0x02#8 ++ s.w1 ++ s.w0], answers := rest }) ∧
  ∀ (i : Instr) (s t : State) (d1 d0 : Word), exec i s = .next t →
    t.rsps = s.rsps ++ [rspWord .checksumMismatch d1 d0] →
    (∃ x, i = .resp x) ∧ s.cfg = 0b10#2 ∧ ∃ b0 b1 b2 b3 b4 b5 : Byte,
      t.hist = s.hist ++ [.rd s.addr 6 (.bytes [b0, b1, b2, b3, b4, b5])] ∧ (b2 ≠ crc8 b0 b1 ∨ b5 ≠ crc8 b3 b4)

/-- R13, R53: in variant B CRCCHK has no effect: RESP under CFG = 0b11 does what it does under 0b01, takes word 1 from bytes
2 and 3, and leaves RXBUF[4] and RXBUF[5] as they were (R19). The event, STATUS and the response are R86's. Bytes offered beyond
the fourth leave no trace: R31, the spec's own decision D28, in the model's form of an answer (log entry 2). -/
def Obligations.VariantBIgnoresCrcchk : Prop :=
  ∀ (x : BitVec 32) (s : State) (b0 b1 b2 b3 : Byte) (more : List Byte) (rest : List BusAnswer),
    (s.cfg = 0b01#2 ∨ s.cfg = 0b11#2) → s.answers = .returns (b0 :: b1 :: b2 :: b3 :: more) :: rest →
    exec (.resp x) s = .next { s with
      hist := s.hist ++ [.rd s.addr 4 (.bytes [b0, b1, b2, b3])]
      rxbuf := #v[b0, b1, b2, b3, s.rxbuf[4], s.rxbuf[5]], rxlen := 4
      w0 := b0 ++ b1, w1 := b2 ++ b3, status := statusWord true false false
      rsps := s.rsps ++ [0x00#8 ++ (b2 ++ b3) ++ (b0 ++ b1)], answers := rest }

/-- R100, R14: CFGWR writes CFG, answers OK with CFG after the write, and changes nothing else. The operation, its encoding
and that it has no side effect are the spec's own decisions D3, D5 and D27. -/
def Obligations.CfgwrResult : Prop :=
  ∀ (v : BitVec 2) (x : BitVec 30) (s : State),
    encode (.cfgwr v x) = .req (0x05#8 ++ x ++ v) ∧
    exec (.cfgwr v x) s = .next { s with cfg := v, rsps := s.rsps ++ [0x00#8 ++ 0x0000#16 ++ 0#14 ++ v] }

/-- R101, R18: RDREG answers OK with the indexed register zero-extended in D0, or IllegalRequest with zeros for a reserved
index; in every case no state and no bus event. The operation and its index map are the spec's own decisions D5 and D15. -/
def Obligations.RdregResult : Prop :=
  ∀ (x : BitVec 28) (s : State),
    (∀ r : BitVec 4, encode (.rdreg r x) = .req (0x06#8 ++ x ++ r)) ∧
    (∀ p : BitVec 4 × Word, p ∈ ([(0, 0#14 ++ s.cfg), (1, 0#13 ++ s.status), (2, s.w0), (3, s.w1), (4, 0x0058#16),
        (5, 0#13 ++ s.rxlen), (8, 0#8 ++ s.rxbuf[0]), (9, 0#8 ++ s.rxbuf[1]), (10, 0#8 ++ s.rxbuf[2]),
        (11, 0#8 ++ s.rxbuf[3]), (12, 0#8 ++ s.rxbuf[4]), (13, 0#8 ++ s.rxbuf[5])] : List (BitVec 4 × Word)) →
      exec (.rdreg p.1 x) s = .next { s with rsps := s.rsps ++ [0x00#8 ++ 0x0000#16 ++ p.2] }) ∧
    (∀ r : BitVec 4, r ∈ ([6, 7, 14, 15] : List (BitVec 4)) →
      exec (.rdreg r x) s = .next { s with rsps := s.rsps ++ [0x0300000000#40] })

/-- R102: a request with an undefined OP is taken and answered IllegalRequest; no register changes, no bus event is caused,
the next request stands at the port (the spec's own decision D15). -/
def Obligations.UndefinedOpAnswersIllegalRequest : Prop :=
  ∀ (s : State) (w : BitVec 40) (rest : List Request), s.resetIn = false → s.reqs = .req w :: rest →
    (w.toNat / 2 ^ 32 = 0 ∨ 7 ≤ w.toNat / 2 ^ 32) →
    step s = .next { s with reqs := rest, rsps := s.rsps ++ [0x0300000000#40] }

/-- R113: an IllegalRequest, from whichever of its two causes, changes no register, causes no bus event and uses up no
answer of the transport (the spec's own decision D15). -/
def Obligations.IllegalRequestHasNoEffect : Prop :=
  ∀ (s t : State) (r : Request) (rest : List Request), s.resetIn = false → s.reqs = r :: rest → step s = .next t →
    (t.rsps = s.rsps ++ [0x0300000000#40] ↔
      (∃ e, decode r = .error e) ∨
        ∃ (k : BitVec 4) (x : BitVec 28), decode r = .ok (.rdreg k x) ∧ k ∈ ([6, 7, 14, 15] : List (BitVec 4))) ∧
    (t.rsps = s.rsps ++ [0x0300000000#40] →
      t = { s with reqs := rest, rsps := s.rsps ++ [0x0300000000#40] })

/-- R57: the response word's fields and codes; every completed operation presents exactly one response, with one of the
status codes the table allows it and with the table's D1 and D0. Format, codes and result fields are the spec's own
decisions D2, D4 and D26. -/
def Obligations.OneResponsePerRequest : Prop :=
  (∀ (c : RspCode) (d1 d0 : Word), rspWord c d1 d0 = c.st ++ d1 ++ d0) ∧
  (RspCode.ok.st = 0x00 ∧ RspCode.transportError.st = 0x01 ∧ RspCode.checksumMismatch.st = 0x02 ∧
    RspCode.illegalRequest.st = 0x03) ∧
  (∀ (i : Instr) (s t : State), exec i s = .next t →
    ∃ c : RspCode, rspCodeAllowed i c = true ∧
      t.rsps = s.rsps ++ [rspWord c (rspFields i c t).1 (rspFields i c t).2]) ∧
  (∀ (s : State) (r : Request) (rest : List Request) (e : Reject), s.resetIn = false → s.reqs = r :: rest →
    decode r = .error e → ∃ t, step s = .next t ∧ t.rsps = s.rsps ++ [rspWord .illegalRequest 0 0])

/-! ## Frames -/

/-- R74, R101: CRC8 and RDREG, in every form, change no register, no history and no answer: only the response is added. -/
def Obligations.AnswerOnlyFrame : Prop :=
  ∀ (i : Instr) (s t : State), (∃ b0 b1 x, i = .crc8 b0 b1 x) ∨ (∃ r x, i = .rdreg r x) → exec i s = .next t →
    t = { s with rsps := t.rsps }

/-- R82, R83: every write operation (CMD, CMDW, the five pseudo-instructions, the five bare command words) leaves CFG, W0, W1,
RXLEN, RXBUF, VALID and the request port as they were and adds one event, the write of its frame. That a bare command word at
the port does so is the model's choice (log entry 7). -/
def Obligations.BusWriteFrame : Prop :=
  ∀ (i : Instr) (s t : State) (c : Word) (word : Bool), busCommand i = some (c, word) → exec i s = .next t →
    t = { s with status := t.status, hist := t.hist, rsps := t.rsps, answers := s.answers.tail } ∧
    statusValid t.status = statusValid s.status ∧
    ∃ (v : List Byte) (r : WriteResult), t.hist = s.hist ++ [.wr s.addr v r] ∧
      v.take 2 = [hi8 c, lo8 c] ∧ v.length = if word then 5 else 2

/-- R86, R19: RESP leaves CFG and the request port as they were, RXBUF beyond the bytes read as it was, and W0, W1 and
VALID as they were unless it answers OK; it adds one event, the read. -/
def Obligations.RespFrame : Prop :=
  ∀ (x : BitVec 32) (s t : State), exec (.resp x) s = .next t →
    t.cfg = s.cfg ∧ t.reqs = s.reqs ∧ t.resetIn = s.resetIn ∧ t.answers = s.answers.tail ∧
    (∃ r, t.hist = s.hist ++ [.rd s.addr (respLen (cfgVariant s.cfg)) r]) ∧
    (∀ k : Fin 6, respLen (cfgVariant s.cfg) ≤ k.val → t.rxbuf[k] = s.rxbuf[k]) ∧
    (t.rsps ≠ s.rsps ++ [rspWord .ok t.w1 t.w0] →
      t.w0 = s.w0 ∧ t.w1 = s.w1 ∧ statusValid t.status = statusValid s.status)

/-- R10 (column "written by"), R12, R16, R19: which operations can change which register, over all instructions. -/
def Obligations.RegistersWrittenOnlyBy : Prop :=
  ∀ (i : Instr) (s t : State), exec i s = .next t →
    (t.cfg ≠ s.cfg → ∃ v x, i = .cfgwr v x) ∧
    (t.status ≠ s.status → busCommand i ≠ none ∨ ∃ x, i = .resp x) ∧
    (t.w0 ≠ s.w0 ∨ t.w1 ≠ s.w1 → ∃ x, i = .resp x ∧ t.rsps = s.rsps ++ [rspWord .ok t.w1 t.w0]) ∧
    (t.rxlen ≠ s.rxlen ∨ t.rxbuf ≠ s.rxbuf →
      ∃ x b, i = .resp x ∧ t.hist = s.hist ++ [.rd s.addr (respLen (cfgVariant s.cfg)) (.bytes b)])

/-- R15: TERR and CERR describe the most recent bus operation; VALID is set exactly by an accepted RESP and no operation
clears it; operations that are not bus operations leave STATUS as it was (the spec's own decision D10). -/
def Obligations.StatusUpdatePolicy : Prop :=
  ∀ (i : Instr) (s t : State), exec i s = .next t →
    (usesBus i = false → t.status = s.status) ∧
    (usesBus i = true → ∃ e, t.hist = s.hist ++ [e] ∧ (statusTerr t.status = true ↔ e.failed = true) ∧
      (statusCerr t.status = true ↔ ∃ x, i = .resp x ∧ t.rsps = s.rsps ++ [rspWord .checksumMismatch s.w1 s.w0])) ∧
    (statusValid s.status = true → statusValid t.status = true) ∧
    (statusValid s.status = false → statusValid t.status = true →
      ∃ x, i = .resp x ∧ t.rsps = s.rsps ++ [rspWord .ok t.w1 t.w0]) ∧
    (∀ x, i = .resp x → t.rsps = s.rsps ++ [rspWord .ok t.w1 t.w0] → statusValid t.status = true)

/-- R17, R40, R37: ADDR is 0x58 in every state, and every bus event of every step goes to it with a length of R37. -/
def Obligations.AddrConstantAndLengthsFixed : Prop :=
  (∀ s : State, s.addr = 0x58#7) ∧
  ∀ (i : Instr) (s t : State), exec i s = .next t →
    (usesBus i = true → ∃ e : BusEvent, t.hist = s.hist ++ [e] ∧ e.legal = true) ∧
    (usesBus i = false → t.hist = s.hist)

/-! ## The step -/

/-- R41: a step performs the decoded instruction that stands first at the port, and only that one is taken from it. -/
def Obligations.StepRunsDecodedInstruction : Prop :=
  ∀ (s : State) (r : Request) (rest : List Request) (i : Instr), s.resetIn = false → s.reqs = r :: rest →
    decode r = .ok i → step s = exec i { s with reqs := rest }

/-- The model's choice of what a step without a request is (log entry 1): the block waits, unchanged (R130: "After reset the
block waits for the first request"). -/
def Obligations.StepWaitsForRequest : Prop :=
  ∀ s : State, s.resetIn = false → s.reqs = [] → step s = .next s

/-- R23: the state after reset (values the spec gives, marked as its own decision D11; ADDR and the permissive default are
DOC0's). -/
def Obligations.ResetRegisters : Prop :=
  State.reset.cfg = 0b00#2 ∧ State.reset.status = 0b000#3 ∧ State.reset.w0 = 0x0000#16 ∧ State.reset.w1 = 0x0000#16 ∧
  State.reset.addr = 0x58#7 ∧ State.reset.rxlen = 0#3 ∧ State.reset.rxbuf = #v[0x00#8, 0x00#8, 0x00#8, 0x00#8, 0x00#8, 0x00#8] ∧
  statusTerr State.reset.status = false ∧ statusCerr State.reset.status = false ∧
  statusValid State.reset.status = false ∧ cfgVariant State.reset.cfg = .A ∧ cfgCrcchk State.reset.cfg = false

/-- R130, R131, R32: a block reset, in every state, puts every register at its reset value, causes no bus event, keeps the
history, and gives no response (the spec's own decision D11). How the reset input and the port are held is the model's choice
(log entry 4): only a request in progress, one whose bus primitive has not returned, is dropped from the port. -/
def Obligations.BlockResetStep : Prop :=
  ∀ s : State, s.resetIn = true → ∃ t, step s = .next t ∧
    t = { State.reset with hist := s.hist, rsps := s.rsps, answers := s.answers, reqs := t.reqs } ∧
    (step { s with resetIn := false } ≠ .fault .busStalled → t.reqs = s.reqs) ∧
    (step { s with resetIn := false } = .fault .busStalled → t.reqs = s.reqs.tail)

/-- R9, R31, R30: the only way a step can fail to exist is a bus operation whose primitive has not returned (no answer of
the transport, log entries 2 and 3); no request is ever refused. With the reset input asserted every state, a stalled one too,
has a step: R130 and R137, with the model's choice that a step reads the reset input before anything else (log entry 4). -/
def Obligations.OnlyUnansweredBusOperationStalls : Prop :=
  (∀ s : State, s.resetIn = false →
    (step s = .fault .busStalled ↔
      s.answers = [] ∧ ∃ (r : Request) (rest : List Request) (i : Instr),
        s.reqs = r :: rest ∧ decode r = .ok i ∧ (busCommand i ≠ none ∨ ∃ x, i = .resp x))) ∧
  (∀ s : State, s.resetIn = true → ∃ t, step s = .next t) ∧
  ∀ (s : State) (ρ : Refusal), step s ≠ .refused ρ

/-- R137, R130: a stalled block has no step; with the reset input asserted it goes on from the reset registers, the request
in progress abandoned without a response. That an empty list of answers is the stall, and the stall the fault `busStalled`, is the
model's form (log entries 2 and 3); how the reset input and the port are held is its choice (log entry 4). -/
def Obligations.StallFreedByReset : Prop :=
  ∀ (s : State) (r : Request) (rest : List Request) (i : Instr), s.resetIn = false → s.reqs = r :: rest →
    decode r = .ok i → (busCommand i ≠ none ∨ ∃ x, i = .resp x) → s.answers = [] →
    step s = .fault .busStalled ∧
    step { s with resetIn := true } = .next { State.reset with hist := s.hist, rsps := s.rsps, reqs := rest }

/-- R32, R41: the history only grows, by at most one event a step, also over a reset. That the responses are held, and so only
grow too, and that they and the history stand through the reset input's step, is the model's form (log entries 5 and 4). -/
def Obligations.HistoryOnlyGrows : Prop :=
  ∀ s t : State, step s = .next t →
    ∃ (es : List BusEvent) (rs : List (BitVec 40)), t.hist = s.hist ++ es ∧ t.rsps = s.rsps ++ rs ∧
      es.length ≤ rs.length ∧ rs.length ≤ 1

/-! ## Whole-machine rules -/

/-- The invariant holds after reset (R23). -/
def Obligations.InvAtReset : Prop := State.reset.Inv

/-- R15, R16, R19, R37, R40, R57, R116, R124: every step keeps the invariant. -/
def Obligations.StepKeepsInv : Prop :=
  ∀ s t : State, s.Inv → step s = .next t → t.Inv

/-- R21, R24: the block never reads the history: two states that differ only there step alike, with the same new events and
responses. Nor does it read the responses presented: that State holds them is the model's choice (log entry 5), and R10 lets the
block have no such state. -/
def Obligations.HistoryIsNeverRead : Prop :=
  ∀ (s t : State) (h : List BusEvent) (q : List (BitVec 40)), step s = .next t →
    ∃ (es : List BusEvent) (rs : List (BitVec 40)), t.hist = s.hist ++ es ∧ t.rsps = s.rsps ++ rs ∧
      step { s with hist := h, rsps := q } = .next { t with hist := h ++ es, rsps := q ++ rs }

/-- R15, R118: no operation but RDREG 1 reads STATUS: with any other STATUS it does the same, STATUS apart. So an error left
in STATUS changes nothing of a later request. -/
def Obligations.StatusIsNeverRead : Prop :=
  ∀ (i : Instr) (s t : State) (st : BitVec 3), (∀ x, i ≠ .rdreg 1 x) → exec i s = .next t →
    ∃ st' : BitVec 3, exec i { s with status := st } = .next { t with status := st' } ∧
      (usesBus i = true → statusTerr st' = statusTerr t.status ∧ statusCerr st' = statusCerr t.status)

/-- R30, R137: under the premise TransportFailsFast every request at the port is served, in as many steps as there are
requests, and one more where the reset input is asserted first, with one response each. How requests and answers are held is the
model's choice (log entries 1 and 2), and so are the reset input's one step and that the waiting requests and the answers stand
through it (R130, log entry 4). -/
def Obligations.EveryRequestIsServed : Prop :=
  ∀ s : State, TransportFailsFast s →
    ∃ t : State, Sys2Proof.core.run (s.reqs.length + if s.resetIn = true then 1 else 0) s = .next t ∧
      t.reqs = [] ∧ t.rsps.length = s.rsps.length + s.reqs.length

/-! ## The host's obligations -/

/-- R134, R141, R44: in a trace of a host that keeps its obligations, every RESP follows its own measurement command, written
with success, with no other bus request between and at least that command's conversion time waited. How obligations are
checked on a trace is the model's choice (log entry 15). -/
def Obligations.ObedientHostWaitsBeforeResp : Prop :=
  ∀ (d : HostDelays) (before after : List HostAction) (r : Request) (st : RspCode) (x : BitVec 32),
    hostObeys d (before ++ [.request r st] ++ after) = true → decode r = .ok (.resp x) →
    ∃ (early between : List HostAction) (m : Request) (i : Instr) (need : Nat),
      before = early ++ [.request m .ok] ++ between ∧ decode m = .ok i ∧
      ((busCommand i = some (0x2008, false) ∧ need = d.tMeasMs) ∨
        (busCommand i = some (0x2050, false) ∧ need = d.tRawMs)) ∧
      (∀ a ∈ between, a.usesBus = false) ∧ need ≤ hostPauses between

/-- R133: in a trace of a host that keeps its obligations, every measurement command follows a successful IAQ_INIT with the
burn-in time waited since (log entry 15). -/
def Obligations.ObedientHostInitialisesFirst : Prop :=
  ∀ (d : HostDelays) (before after : List HostAction) (r : Request) (st : RspCode) (i : Instr) (c : Word),
    hostObeys d (before ++ [.request r st] ++ after) = true → decode r = .ok i → busCommand i = some (c, false) →
    (c = 0x2008 ∨ c = 0x2050) →
    ∃ (early between : List HostAction) (m : Request) (j : Instr),
      before = early ++ [.request m .ok] ++ between ∧ decode m = .ok j ∧ busCommand j = some (0x2003, false) ∧
      d.tBurninMs ≤ hostPauses between

/-- R139, which the spec marks as derived: in a trace of a host that keeps its obligations and never means a RESP to use a new
layout, a CFGWR between a measurement command and its RESP does not change VARIANT; one that changes only CRCCHK may stand there
(log entry 15). -/
def Obligations.ObedientHostKeepsVariant : Prop :=
  ∀ (d : HostDelays) (early between after : List HostAction) (m r : Request) (st : RspCode) (i : Instr) (v : BitVec 2)
    (x : BitVec 30),
    hostObeys d (early ++ [.request m .ok] ++ between ++ [.request r st] ++ after) = true → decode m = .ok i →
    (busCommand i = some (0x2008, false) ∨ busCommand i = some (0x2050, false)) →
    (∀ a ∈ between, a.isResp = false) → HostAction.meansNewLayout ∉ early ++ between → decode r = .ok (.cfgwr v x) →
    cfgVariant v = hostVariant (early ++ [.request m .ok] ++ between)

/-! ## Progress, step by step -/

/-- R30, R137: under the premise TransportFailsFast every state has a step, the premise still holds after it, and where a request
stands first at the port and the reset input is released, the step serves exactly that request, with one response more, and one
answer used up if it calls a bus primitive. How requests and answers are held is the model's choice (log entries 1 and 2), and so
is that a step releases the reset input and keeps the waiting requests and the answers (R130, log entry 4). -/
def Obligations.EachStepServesARequest : Prop :=
  ∀ s : State, TransportFailsFast s → ∃ t : State, step s = .next t ∧ TransportFailsFast t ∧ t.resetIn = false ∧
    ∀ (r : Request) (rest : List Request), s.resetIn = false → s.reqs = r :: rest →
      t.reqs = rest ∧ (∃ w, t.rsps = s.rsps ++ [w]) ∧
      t.answers = if requestUsesBus r = true then s.answers.tail else s.answers
end

