-- ==== Sys2Proof/Laws/Decode.lean ====
section
/-! SUPPORT. A request word as a number, its fields read back, and a request word put together again from its fields
(R56). -/

namespace Sys2Proof

/-- Concatenation as a number (R7). -/
theorem append_toNat {m n : Nat} (x : BitVec m) (y : BitVec n) : (x ++ y).toNat = x.toNat * 2 ^ n + y.toNat := by
  rw [BitVec.toNat_append, ← Nat.shiftLeft_add_eq_or_of_lt y.isLt, Nat.shiftLeft_eq]

/-- A slice as a number (R7). -/
theorem slice_toNat {m : Nat} (lo n : Nat) (x : BitVec m) : (x.extractLsb' lo n).toNat = x.toNat / 2 ^ lo % 2 ^ n := by
  rw [BitVec.extractLsb'_toNat, Nat.shiftRight_eq_div_pow]

/-- `{OP, operand bits}` as a number. -/
theorem opWord_toNat (op : BitVec 8) (x : BitVec 32) : (op ++ x : BitVec 40).toNat = op.toNat * 2 ^ 32 + x.toNat :=
  append_toNat op x

theorem reqWord_toNat (op : BitVec 8) (a b : Word) :
    (reqWord op a b).toNat = op.toNat * 2 ^ 32 + a.toNat * 2 ^ 16 + b.toNat := by
  refine (append_toNat (op ++ a) b).trans ?_
  rw [append_toNat]
  omega

theorem reqOp_toNat (w : BitVec 40) : (reqOp w).toNat = w.toNat / 2 ^ 32 := by
  have := w.isLt
  rw [reqOp, slice_toNat]
  omega

theorem reqA_toNat (w : BitVec 40) : (reqA w).toNat = w.toNat / 2 ^ 16 % 2 ^ 16 := by
  rw [reqA, slice_toNat]

theorem reqB_toNat (w : BitVec 40) : (reqB w).toNat = w.toNat % 2 ^ 16 := by
  rw [reqB, slice_toNat, Nat.pow_zero, Nat.div_one]

@[simp] theorem reqOp_reqWord (op : BitVec 8) (a b : Word) : reqOp (reqWord op a b) = op := by
  apply BitVec.eq_of_toNat_eq
  have := op.isLt; have := a.isLt; have := b.isLt
  rw [reqOp_toNat, reqWord_toNat]
  omega

@[simp] theorem reqA_reqWord (op : BitVec 8) (a b : Word) : reqA (reqWord op a b) = a := by
  apply BitVec.eq_of_toNat_eq
  have := op.isLt; have := a.isLt; have := b.isLt
  rw [reqA_toNat, reqWord_toNat]
  omega

@[simp] theorem reqB_reqWord (op : BitVec 8) (a b : Word) : reqB (reqWord op a b) = b := by
  apply BitVec.eq_of_toNat_eq
  have := op.isLt; have := a.isLt; have := b.isLt
  rw [reqB_toNat, reqWord_toNat]
  omega

theorem reqWord_fields (w : BitVec 40) : reqWord (reqOp w) (reqA w) (reqB w) = w := by
  apply BitVec.eq_of_toNat_eq
  have := w.isLt
  rw [reqWord_toNat, reqOp_toNat, reqA_toNat, reqB_toNat]
  omega

end Sys2Proof
end

