-- ==== Sys2Proof/Laws/Operands.lean ====
section
/-! SUPPORT. The byte order: a word taken apart and put together (20_memory.md R33, R34), and the register index. -/

namespace Sys2Proof.Machine

@[simp] theorem hi8_be16 (hi lo : Byte) : hi8 (be16 hi lo) = hi := by
  apply BitVec.eq_of_toNat_eq
  have := hi.isLt; have := lo.isLt
  have e : (be16 hi lo).toNat = hi.toNat * 2 ^ 8 + lo.toNat := append_toNat hi lo
  rw [hi8, slice_toNat, e]
  omega

@[simp] theorem lo8_be16 (hi lo : Byte) : lo8 (be16 hi lo) = lo := by
  apply BitVec.eq_of_toNat_eq
  have := hi.isLt; have := lo.isLt
  have e : (be16 hi lo).toNat = hi.toNat * 2 ^ 8 + lo.toNat := append_toNat hi lo
  rw [lo8, slice_toNat, e]
  omega

@[simp] theorem be16_hi8_lo8 (w : Word) : be16 (hi8 w) (lo8 w) = w := by
  apply BitVec.eq_of_toNat_eq
  have := w.isLt
  refine (append_toNat (hi8 w) (lo8 w)).trans ?_
  rw [hi8, lo8, slice_toNat, slice_toNat]
  omega

/-- A register's index names it (R18). -/
@[simp] theorem regOfIndex_index (x : Reg) : regOfIndex x.index = some x := by
  cases x with
  | rxbuf k => revert k; decide
  | _ => rfl

/-- The reserved indices (R18, R101). -/
theorem regOfIndex_eq_none (r : BitVec 4) : regOfIndex r = none ↔ r = 6 ∨ r = 7 ∨ r = 14 ∨ r = 15 := by
  revert r; decide

end Sys2Proof.Machine
end

