-- ==== Sys2Proof/Laws/State.lean ====
section
/-! SUPPORT. One lemma per field per update of the state, each true by rfl, and the fields of STATUS read back. -/

namespace Sys2Proof.Machine

variable (s : State)

/-! ### STATUS and CFG -/

@[simp] theorem statusValid_word (v c t : Bool) : statusValid (statusWord v c t) = v := by
  cases v <;> cases c <;> cases t <;> decide

@[simp] theorem statusCerr_word (v c t : Bool) : statusCerr (statusWord v c t) = c := by
  cases v <;> cases c <;> cases t <;> decide

@[simp] theorem statusTerr_word (v c t : Bool) : statusTerr (statusWord v c t) = t := by
  cases v <;> cases c <;> cases t <;> decide

@[simp] theorem statusSetErrors_eq (st : BitVec 3) (c t : Bool) :
    statusSetErrors st c t = statusWord (statusValid st) c t := rfl

@[simp] theorem statusSetValid_word (v c t : Bool) : statusSetValid (statusWord v c t) = statusWord true c t := by
  simp [statusSetValid]

@[simp] theorem State.addr_eq : s.addr = devAddr := rfl

/-! ### respond -/

@[simp] theorem respond_cfg (st : RspCode) (d1 d0 : Word) : (respond st d1 d0 s).cfg = s.cfg := rfl
@[simp] theorem respond_status (st : RspCode) (d1 d0 : Word) : (respond st d1 d0 s).status = s.status := rfl
@[simp] theorem respond_w0 (st : RspCode) (d1 d0 : Word) : (respond st d1 d0 s).w0 = s.w0 := rfl
@[simp] theorem respond_w1 (st : RspCode) (d1 d0 : Word) : (respond st d1 d0 s).w1 = s.w1 := rfl
@[simp] theorem respond_rxlen (st : RspCode) (d1 d0 : Word) : (respond st d1 d0 s).rxlen = s.rxlen := rfl
@[simp] theorem respond_rxbuf (st : RspCode) (d1 d0 : Word) : (respond st d1 d0 s).rxbuf = s.rxbuf := rfl
@[simp] theorem respond_hist (st : RspCode) (d1 d0 : Word) : (respond st d1 d0 s).hist = s.hist := rfl
@[simp] theorem respond_rsps (st : RspCode) (d1 d0 : Word) : (respond st d1 d0 s).rsps = s.rsps ++ [rspWord st d1 d0] := rfl
@[simp] theorem respond_reqs (st : RspCode) (d1 d0 : Word) : (respond st d1 d0 s).reqs = s.reqs := rfl
@[simp] theorem respond_answers (st : RspCode) (d1 d0 : Word) : (respond st d1 d0 s).answers = s.answers := rfl
@[simp] theorem respond_resetIn (st : RspCode) (d1 d0 : Word) : (respond st d1 d0 s).resetIn = s.resetIn := rfl

/-! ### setErrors -/

@[simp] theorem setErrors_cfg (cerr terr : Bool) : (setErrors cerr terr s).cfg = s.cfg := rfl
@[simp] theorem setErrors_status (cerr terr : Bool) : (setErrors cerr terr s).status = statusSetErrors s.status cerr terr := rfl
@[simp] theorem setErrors_w0 (cerr terr : Bool) : (setErrors cerr terr s).w0 = s.w0 := rfl
@[simp] theorem setErrors_w1 (cerr terr : Bool) : (setErrors cerr terr s).w1 = s.w1 := rfl
@[simp] theorem setErrors_rxlen (cerr terr : Bool) : (setErrors cerr terr s).rxlen = s.rxlen := rfl
@[simp] theorem setErrors_rxbuf (cerr terr : Bool) : (setErrors cerr terr s).rxbuf = s.rxbuf := rfl
@[simp] theorem setErrors_hist (cerr terr : Bool) : (setErrors cerr terr s).hist = s.hist := rfl
@[simp] theorem setErrors_rsps (cerr terr : Bool) : (setErrors cerr terr s).rsps = s.rsps := rfl
@[simp] theorem setErrors_reqs (cerr terr : Bool) : (setErrors cerr terr s).reqs = s.reqs := rfl
@[simp] theorem setErrors_answers (cerr terr : Bool) : (setErrors cerr terr s).answers = s.answers := rfl
@[simp] theorem setErrors_resetIn (cerr terr : Bool) : (setErrors cerr terr s).resetIn = s.resetIn := rfl

/-! ### logEvent -/

@[simp] theorem logEvent_cfg (e : BusEvent) : (logEvent e s).cfg = s.cfg := rfl
@[simp] theorem logEvent_status (e : BusEvent) : (logEvent e s).status = s.status := rfl
@[simp] theorem logEvent_w0 (e : BusEvent) : (logEvent e s).w0 = s.w0 := rfl
@[simp] theorem logEvent_w1 (e : BusEvent) : (logEvent e s).w1 = s.w1 := rfl
@[simp] theorem logEvent_rxlen (e : BusEvent) : (logEvent e s).rxlen = s.rxlen := rfl
@[simp] theorem logEvent_rxbuf (e : BusEvent) : (logEvent e s).rxbuf = s.rxbuf := rfl
@[simp] theorem logEvent_hist (e : BusEvent) : (logEvent e s).hist = s.hist ++ [e] := rfl
@[simp] theorem logEvent_rsps (e : BusEvent) : (logEvent e s).rsps = s.rsps := rfl
@[simp] theorem logEvent_reqs (e : BusEvent) : (logEvent e s).reqs = s.reqs := rfl
@[simp] theorem logEvent_answers (e : BusEvent) : (logEvent e s).answers = s.answers.tail := rfl
@[simp] theorem logEvent_resetIn (e : BusEvent) : (logEvent e s).resetIn = s.resetIn := rfl

/-! ### loadRx -/

@[simp] theorem loadRx_cfg (b : List Byte) : (loadRx b s).cfg = s.cfg := rfl
@[simp] theorem loadRx_status (b : List Byte) : (loadRx b s).status = s.status := rfl
@[simp] theorem loadRx_w0 (b : List Byte) : (loadRx b s).w0 = s.w0 := rfl
@[simp] theorem loadRx_w1 (b : List Byte) : (loadRx b s).w1 = s.w1 := rfl
@[simp] theorem loadRx_rxlen (b : List Byte) : (loadRx b s).rxlen = BitVec.ofNat 3 b.length := rfl
@[simp] theorem loadRx_rxbuf (b : List Byte) : (loadRx b s).rxbuf = Vector.ofFn fun i => b.getD i.val s.rxbuf[i] := rfl
@[simp] theorem loadRx_hist (b : List Byte) : (loadRx b s).hist = s.hist := rfl
@[simp] theorem loadRx_rsps (b : List Byte) : (loadRx b s).rsps = s.rsps := rfl
@[simp] theorem loadRx_reqs (b : List Byte) : (loadRx b s).reqs = s.reqs := rfl
@[simp] theorem loadRx_answers (b : List Byte) : (loadRx b s).answers = s.answers := rfl
@[simp] theorem loadRx_resetIn (b : List Byte) : (loadRx b s).resetIn = s.resetIn := rfl

/-! ### acceptReading -/

@[simp] theorem acceptReading_cfg (w0 w1 : Word) : (acceptReading w0 w1 s).cfg = s.cfg := rfl
@[simp] theorem acceptReading_status (w0 w1 : Word) : (acceptReading w0 w1 s).status = statusSetValid (statusSetErrors s.status false false) := rfl
@[simp] theorem acceptReading_w0 (w0 w1 : Word) : (acceptReading w0 w1 s).w0 = w0 := rfl
@[simp] theorem acceptReading_w1 (w0 w1 : Word) : (acceptReading w0 w1 s).w1 = w1 := rfl
@[simp] theorem acceptReading_rxlen (w0 w1 : Word) : (acceptReading w0 w1 s).rxlen = s.rxlen := rfl
@[simp] theorem acceptReading_rxbuf (w0 w1 : Word) : (acceptReading w0 w1 s).rxbuf = s.rxbuf := rfl
@[simp] theorem acceptReading_hist (w0 w1 : Word) : (acceptReading w0 w1 s).hist = s.hist := rfl
@[simp] theorem acceptReading_rsps (w0 w1 : Word) : (acceptReading w0 w1 s).rsps = s.rsps := rfl
@[simp] theorem acceptReading_reqs (w0 w1 : Word) : (acceptReading w0 w1 s).reqs = s.reqs := rfl
@[simp] theorem acceptReading_answers (w0 w1 : Word) : (acceptReading w0 w1 s).answers = s.answers := rfl
@[simp] theorem acceptReading_resetIn (w0 w1 : Word) : (acceptReading w0 w1 s).resetIn = s.resetIn := rfl

/-! ### writeCfg -/

@[simp] theorem writeCfg_cfg (v : BitVec 2) : (writeCfg v s).cfg = v := rfl
@[simp] theorem writeCfg_status (v : BitVec 2) : (writeCfg v s).status = s.status := rfl
@[simp] theorem writeCfg_w0 (v : BitVec 2) : (writeCfg v s).w0 = s.w0 := rfl
@[simp] theorem writeCfg_w1 (v : BitVec 2) : (writeCfg v s).w1 = s.w1 := rfl
@[simp] theorem writeCfg_rxlen (v : BitVec 2) : (writeCfg v s).rxlen = s.rxlen := rfl
@[simp] theorem writeCfg_rxbuf (v : BitVec 2) : (writeCfg v s).rxbuf = s.rxbuf := rfl
@[simp] theorem writeCfg_hist (v : BitVec 2) : (writeCfg v s).hist = s.hist := rfl
@[simp] theorem writeCfg_rsps (v : BitVec 2) : (writeCfg v s).rsps = s.rsps := rfl
@[simp] theorem writeCfg_reqs (v : BitVec 2) : (writeCfg v s).reqs = s.reqs := rfl
@[simp] theorem writeCfg_answers (v : BitVec 2) : (writeCfg v s).answers = s.answers := rfl
@[simp] theorem writeCfg_resetIn (v : BitVec 2) : (writeCfg v s).resetIn = s.resetIn := rfl

/-! ### takeRequest -/

@[simp] theorem takeRequest_cfg : (takeRequest s).cfg = s.cfg := rfl
@[simp] theorem takeRequest_status : (takeRequest s).status = s.status := rfl
@[simp] theorem takeRequest_w0 : (takeRequest s).w0 = s.w0 := rfl
@[simp] theorem takeRequest_w1 : (takeRequest s).w1 = s.w1 := rfl
@[simp] theorem takeRequest_rxlen : (takeRequest s).rxlen = s.rxlen := rfl
@[simp] theorem takeRequest_rxbuf : (takeRequest s).rxbuf = s.rxbuf := rfl
@[simp] theorem takeRequest_hist : (takeRequest s).hist = s.hist := rfl
@[simp] theorem takeRequest_rsps : (takeRequest s).rsps = s.rsps := rfl
@[simp] theorem takeRequest_reqs : (takeRequest s).reqs = s.reqs.tail := rfl
@[simp] theorem takeRequest_answers : (takeRequest s).answers = s.answers := rfl
@[simp] theorem takeRequest_resetIn : (takeRequest s).resetIn = s.resetIn := rfl

/-! ### blockReset -/

@[simp] theorem blockReset_cfg : (blockReset s).cfg = 0 := rfl
@[simp] theorem blockReset_status : (blockReset s).status = 0 := rfl
@[simp] theorem blockReset_w0 : (blockReset s).w0 = 0 := rfl
@[simp] theorem blockReset_w1 : (blockReset s).w1 = 0 := rfl
@[simp] theorem blockReset_rxlen : (blockReset s).rxlen = 0 := rfl
@[simp] theorem blockReset_rxbuf : (blockReset s).rxbuf = #v[0, 0, 0, 0, 0, 0] := rfl
@[simp] theorem blockReset_hist : (blockReset s).hist = s.hist := rfl
@[simp] theorem blockReset_rsps : (blockReset s).rsps = s.rsps := rfl
@[simp] theorem blockReset_answers : (blockReset s).answers = s.answers := rfl
@[simp] theorem blockReset_resetIn : (blockReset s).resetIn = false := rfl

theorem blockReset_reqs : (blockReset s).reqs = if stalled s then s.reqs.tail else s.reqs := rfl

end Sys2Proof.Machine
end

