-- ==== Sys2Proof/Laws/Ops.lean ====
section
/-! SUPPORT. For each shared operation, once, everything it can do. -/

namespace Sys2Proof.Machine

/-- A completed read of `n` bytes gives exactly `n` bytes (R31). -/
theorem memRead_length {n : Nat} {a : Config.BusAnswer} {b : List Byte} (h : memRead n a = .bytes b) : b.length = n := by
  cases a with
  | fails => simp [memRead] at h
  | returns supply =>
    simp only [memRead] at h
    split at h
    · cases h
      simpa using ‹n ≤ supply.length›
    · cases h

/-- A read of `n` bytes from a long enough supply takes its first `n` (R31, D28). -/
theorem memRead_enough {n : Nat} {supply : List Byte} (h : n ≤ supply.length) :
    memRead n (.returns supply) = .bytes (supply.take n) := by
  simp [memRead, h]

/-- A read of more bytes than are available fails (R31). -/
theorem memRead_short {n : Nat} {supply : List Byte} (h : supply.length < n) : memRead n (.returns supply) = .fail := by
  simp [memRead, Nat.not_le.mpr h]

/-- A frame of a write has 2 or 5 bytes (R37). -/
theorem frameCmd_length (c : Word) : (frameCmd c).length = 2 := rfl

theorem frameCmdw_length (c d : Word) : (frameCmdw c d).length = 5 := rfl

/-- The lengths of a response (R37, R84). -/
theorem respLen_cases (v : Variant) : (v = .A ∧ respLen v = 6) ∨ (v = .B ∧ respLen v = 4) := by
  cases v <;> simp [respLen]

/-- Everything a bus write can do (R82, R83). -/
theorem writeFrame_cases (v : List Byte) (s : State) :
    (s.answers = [] ∧ writeFrame v s = .fault .busStalled) ∨
    (∃ a, s.answers.head? = some a ∧ memWrite a = .ok ∧
      writeFrame v s = .next (respond .ok 0 0 (setErrors false false (logEvent (.wr s.addr v .ok) s)))) ∨
    (∃ a, s.answers.head? = some a ∧ memWrite a = .fail ∧
      writeFrame v s =
        .next (respond .transportError 0 0 (setErrors false true (logEvent (.wr s.addr v .fail) s)))) := by
  unfold writeFrame
  cases h : s.answers with
  | nil => exact .inl ⟨rfl, rfl⟩
  | cons a rest =>
    cases a with
    | returns supply => exact .inr (.inl ⟨_, rfl, rfl, rfl⟩)
    | fails => exact .inr (.inr ⟨_, rfl, rfl, rfl⟩)

/-- Everything the end of a completed read can do (R85 to R87). -/
theorem finishRead_cases (b : List Byte) (s : State) :
    ((decodeResp (cfgVariant s.cfg) (cfgCrcchk s.cfg) b).ok = true ∧
      finishRead b s = respond .ok (decodeResp (cfgVariant s.cfg) (cfgCrcchk s.cfg) b).w1
        (decodeResp (cfgVariant s.cfg) (cfgCrcchk s.cfg) b).w0
        (acceptReading (decodeResp (cfgVariant s.cfg) (cfgCrcchk s.cfg) b).w0
          (decodeResp (cfgVariant s.cfg) (cfgCrcchk s.cfg) b).w1 (loadRx b s))) ∨
    ((decodeResp (cfgVariant s.cfg) (cfgCrcchk s.cfg) b).ok = false ∧
      finishRead b s = respond .checksumMismatch s.w1 s.w0 (setErrors true false (loadRx b s))) := by
  unfold finishRead
  cases h : (decodeResp (cfgVariant s.cfg) (cfgCrcchk s.cfg) b).ok
  · exact .inr ⟨rfl, by simp [h, raiseError, recordError, Error.code]⟩
  · exact .inl ⟨rfl, by simp [h]⟩

/-- Everything a response read can do (R86). -/
theorem readResponse_cases (s : State) :
    (s.answers = [] ∧ readResponse s = .fault .busStalled) ∨
    (∃ a, s.answers.head? = some a ∧ memRead (respLen (cfgVariant s.cfg)) a = .fail ∧
      readResponse s = .next (respond .transportError s.w1 s.w0 (setErrors false true
        (logEvent (.rd s.addr (respLen (cfgVariant s.cfg)) .fail) s)))) ∨
    (∃ a b, s.answers.head? = some a ∧ memRead (respLen (cfgVariant s.cfg)) a = .bytes b ∧
      readResponse s = .next (finishRead b
        (logEvent (.rd s.addr (respLen (cfgVariant s.cfg)) (.bytes b)) s))) := by
  unfold readResponse
  cases h : s.answers with
  | nil => exact .inl ⟨rfl, rfl⟩
  | cons a rest =>
    cases hr : memRead (respLen (cfgVariant s.cfg)) a with
    | fail => exact .inr (.inl ⟨_, rfl, hr, by simp [hr, raiseError, recordError, Error.code]⟩)
    | bytes b => exact .inr (.inr ⟨_, b, rfl, hr, by simp [hr]⟩)

/-- Everything RDREG can do (R101). -/
theorem execRdreg_cases (r : BitVec 4) (x : BitVec 28) (s : State) :
    (regOfIndex r = none ∧ execRdreg r x s = .next (respond .illegalRequest 0 0 s)) ∨
    (∃ reg, regOfIndex r = some reg ∧ execRdreg r x s = .next (respond .ok 0 (readReg reg s) s)) := by
  unfold execRdreg
  cases h : regOfIndex r with
  | none => exact .inl ⟨rfl, rfl⟩
  | some reg => exact .inr ⟨reg, rfl, rfl⟩

/-- Everything an instruction can be: a write of one frame, a response read, a configuration write, or an answer that
changes no register. -/
theorem exec_cases (i : Instr) (s : State) :
    (usesBus i = true ∧ ∃ v : List Byte, (v.length = 2 ∨ v.length = 5) ∧ exec i s = writeFrame v s) ∨
    (∃ x, i = .resp x ∧ exec i s = readResponse s) ∨
    (∃ v x, i = .cfgwr v x ∧ exec i s = .next (respond .ok 0 (v.setWidth 16) (writeCfg v s))) ∨
    (usesBus i = false ∧ ∃ c d0, exec i s = .next (respond c 0 d0 s)) := by
  cases i with
  | crc8 b0 b1 x => exact .inr (.inr (.inr ⟨rfl, _, _, rfl⟩))
  | cmd c x => exact .inl ⟨rfl, frameCmd c, .inl rfl, rfl⟩
  | cmdw c d => exact .inl ⟨rfl, frameCmdw c d, .inr rfl, rfl⟩
  | resp x => exact .inr (.inl ⟨x, rfl, rfl⟩)
  | cfgwr v x => exact .inr (.inr (.inl ⟨v, x, rfl, rfl⟩))
  | rdreg r x =>
    refine .inr (.inr (.inr ⟨rfl, ?_⟩))
    obtain ⟨-, h⟩ | ⟨reg, -, h⟩ := execRdreg_cases r x s
    · exact ⟨_, _, h⟩
    · exact ⟨_, _, h⟩
  | iaqInit x => exact .inl ⟨rfl, frameCmd 0x2003, .inl rfl, rfl⟩
  | measIaq x => exact .inl ⟨rfl, frameCmd 0x2008, .inl rfl, rfl⟩
  | measRaw x => exact .inl ⟨rfl, frameCmd 0x2050, .inl rfl, rfl⟩
  | setAh d => exact .inl ⟨rfl, frameCmdw 0x2061 d, .inr rfl, rfl⟩
  | setBaseline x => exact .inl ⟨rfl, frameCmd 0x201E, .inl rfl, rfl⟩
  | wireIaqInit => exact .inl ⟨rfl, frameCmd 0x2003, .inl rfl, rfl⟩
  | wireMeasIaq => exact .inl ⟨rfl, frameCmd 0x2008, .inl rfl, rfl⟩
  | wireMeasRaw => exact .inl ⟨rfl, frameCmd 0x2050, .inl rfl, rfl⟩
  | wireSetAh d => exact .inl ⟨rfl, frameCmdw 0x2061 d, .inr rfl, rfl⟩
  | wireSetBaseline => exact .inl ⟨rfl, frameCmd 0x201E, .inl rfl, rfl⟩

/-- Everything a step can be (R41, R102, R130). -/
theorem step_cases (s : State) :
    (s.resetIn = true ∧ step s = .next (blockReset s)) ∨
    (s.resetIn = false ∧ s.reqs = [] ∧ step s = .next s) ∨
    (s.resetIn = false ∧ ∃ r rest i, s.reqs = r :: rest ∧ decode r = .ok i ∧ step s = exec i (takeRequest s)) ∨
    (s.resetIn = false ∧ ∃ r rest e, s.reqs = r :: rest ∧ decode r = .error e ∧
      step s = .next (respond .illegalRequest 0 0 (takeRequest s))) := by
  unfold step
  cases hr : s.resetIn
  · cases hq : s.reqs with
    | nil => exact .inr (.inl ⟨rfl, rfl, rfl⟩)
    | cons r rest =>
      cases hd : decode r with
      | ok i => exact .inr (.inr (.inl ⟨rfl, r, rest, i, rfl, hd, by simp [hd]⟩))
      | error e => exact .inr (.inr (.inr ⟨rfl, r, rest, e, rfl, hd, by simp [hd, rejectRequest, raiseError, recordError, Error.code]⟩))
  · exact .inl ⟨rfl, rfl⟩

end Sys2Proof.Machine
end

