-- ==== Sys2Proof/Laws/PerInstr.lean ====
section
/-! SUPPORT. Laws about the instructions as syntax, one lemma per constructor. -/

namespace Sys2Proof.Laws.EncodeFormat

/-- The format an instruction is encoded in: a request word with its row's `OP` (30_encoding.md R58, R63), or its bare
command word (R54). -/
def Statement (i : Instr) : Prop :=
  match i, encode i with
  | .crc8 _ _ _, .req w => reqOp w = 0x01
  | .cmd _ _, .req w => reqOp w = 0x02
  | .cmdw _ _, .req w => reqOp w = 0x03
  | .resp _, .req w => reqOp w = 0x04
  | .cfgwr _ _, .req w => reqOp w = 0x05
  | .rdreg _ _, .req w => reqOp w = 0x06
  | .iaqInit _, .req w => reqOp w = 0x02 ∧ reqA w = 0x2003
  | .measIaq _, .req w => reqOp w = 0x02 ∧ reqA w = 0x2008
  | .measRaw _, .req w => reqOp w = 0x02 ∧ reqA w = 0x2050
  | .setAh _, .req w => reqOp w = 0x03 ∧ reqA w = 0x2061
  | .setBaseline _, .req w => reqOp w = 0x02 ∧ reqA w = 0x201E
  | .wireIaqInit, .wire c _ => c = 0x2003
  | .wireMeasIaq, .wire c _ => c = 0x2008
  | .wireMeasRaw, .wire c _ => c = 0x2050
  | .wireSetAh _, .wire c _ => c = 0x2061
  | .wireSetBaseline, .wire c _ => c = 0x201E
  | _, _ => False

/-- The `OP` of a request word put together from `OP` and 32 operand bits. -/
theorem reqOp_append (op : BitVec 8) (x : BitVec 32) : reqOp (op ++ x) = op := by
  apply BitVec.eq_of_toNat_eq
  have := op.isLt; have := x.isLt
  rw [reqOp_toNat, opWord_toNat]
  omega

theorem crc8 (b0 b1 : Byte) (x : BitVec 16) : Statement (.crc8 b0 b1 x) := by simp [Statement, encode]
theorem cmd (c : Word) (x : BitVec 16) : Statement (.cmd c x) := by simp [Statement, encode]
theorem cmdw (c d : Word) : Statement (.cmdw c d) := by simp [Statement, encode]
theorem resp (x : BitVec 32) : Statement (.resp x) := reqOp_append 0x04 x
theorem cfgwr (v : BitVec 2) (x : BitVec 30) : Statement (.cfgwr v x) := by
  have h : (0x05#8 ++ x ++ v : BitVec 40) = 0x05#8 ++ (x ++ v : BitVec 32) :=
    BitVec.append_assoc (x₁ := 0x05#8) (x₂ := x) (x₃ := v)
  change reqOp (0x05#8 ++ x ++ v) = 0x05
  rw [h]
  exact reqOp_append 0x05 (x ++ v)
theorem rdreg (r : BitVec 4) (x : BitVec 28) : Statement (.rdreg r x) := by
  have h : (0x06#8 ++ x ++ r : BitVec 40) = 0x06#8 ++ (x ++ r : BitVec 32) :=
    BitVec.append_assoc (x₁ := 0x06#8) (x₂ := x) (x₃ := r)
  change reqOp (0x06#8 ++ x ++ r) = 0x06
  rw [h]
  exact reqOp_append 0x06 (x ++ r)
theorem iaqInit (x : BitVec 16) : Statement (.iaqInit x) := by simp [Statement, encode]
theorem measIaq (x : BitVec 16) : Statement (.measIaq x) := by simp [Statement, encode]
theorem measRaw (x : BitVec 16) : Statement (.measRaw x) := by simp [Statement, encode]
theorem setAh (d : Word) : Statement (.setAh d) := by simp [Statement, encode]
theorem setBaseline (x : BitVec 16) : Statement (.setBaseline x) := by simp [Statement, encode]
theorem wireIaqInit : Statement .wireIaqInit := rfl
theorem wireMeasIaq : Statement .wireMeasIaq := rfl
theorem wireMeasRaw : Statement .wireMeasRaw := rfl
theorem wireSetAh (d : Word) : Statement (.wireSetAh d) := rfl
theorem wireSetBaseline : Statement .wireSetBaseline := rfl

end Sys2Proof.Laws.EncodeFormat
end

