-- ==== Sys2Proof/Laws/Run.lean ====
section
/-! SUPPORT. One more step of a run (Host/Core.lean). -/

namespace Sys2Proof.Machine

theorem run_succ (M : Host.Core) (n : Nat) (s : M.State) :
    M.run (n + 1) s = (match M.step s with
      | .next s' => M.run n s'
      | .fault r => .fault r
      | .refused r => .refused r) := rfl

/-- A run whose first step answers `next t` goes on from `t`. -/
theorem run_succ_of_next {s t : State} (n : Nat) (h : step s = .next t) :
    Sys2Proof.core.run (n + 1) s = Sys2Proof.core.run n t := by
  have e := run_succ Sys2Proof.core n s
  have h' : Sys2Proof.core.step s = .next t := h
  rw [e, h']

end Sys2Proof.Machine
end

