-- ==== Sys2Proof/Laws/Safety.lean ====
section
/-! SUPPORT. What the definitions of Safety.lean say of a trace put together and of one request more or less. -/

namespace Sys2Proof.Machine

/-- A trace is checked part by part. -/
theorem hostTrace_append (d : Config.HostDelays) (t : HostTrack) (a b : List HostAction) :
    hostTrace d t (a ++ b) = (hostTrace d t a).bind fun t' => hostTrace d t' b := by
  induction a generalizing t with
  | nil => rfl
  | cons x xs ih =>
    simp only [List.cons_append, hostTrace]
    cases hostAct d t x with
    | none => rfl
    | some t' => exact ih t'

@[simp] theorem hostPauses_append (a b : List HostAction) : hostPauses (a ++ b) = hostPauses a + hostPauses b := by
  induction a with
  | nil => simp [hostPauses]
  | cons x xs ih => cases x <;> simp [hostPauses, ih]; omega

@[simp] theorem hostVariant_append (a : List HostAction) (x : HostAction) :
    hostVariant (a ++ [x]) = x.variantAfter (hostVariant a) := by
  simp [hostVariant]

/-- A write operation is checked by its command alone. -/
theorem hostInstr_of_busCommand {i : Instr} {c : Word × Bool} (h : busCommand i = some c) (d : Config.HostDelays)
    (t : HostTrack) (st : RspCode) : hostInstr d t st i = hostCommand d t c st := by
  cases i <;> simp only [busCommand, reduceCtorEq, Option.some.injEq] at h <;> subst h <;> rfl

/-- What calls a bus primitive: the write operations and RESP. -/
theorem usesBus_iff (i : Instr) : usesBus i = true ↔ busCommand i ≠ none ∨ ∃ x, i = .resp x := by
  cases i <;> simp [usesBus, busCommand]

@[simp] theorem busCalls_nil : busCalls [] = 0 := rfl

theorem busCalls_cons (r : Request) (rs : List Request) :
    busCalls (r :: rs) = (if requestUsesBus r then 1 else 0) + busCalls rs := rfl

theorem requestUsesBus_of_ok {r : Request} {i : Instr} (h : decode r = .ok i) : requestUsesBus r = usesBus i := by
  simp [requestUsesBus, h]

theorem requestUsesBus_of_error {r : Request} {e : Reject} (h : decode r = .error e) : requestUsesBus r = false := by
  simp [requestUsesBus, h]

/-- Taking requests away keeps the premise. -/
theorem busCalls_tail_le (rs : List Request) : busCalls rs.tail ≤ busCalls rs := by
  cases rs <;> simp [busCalls]

end Sys2Proof.Machine
end

