-- ==== Sys2Proof/Tests/Slice0.lean ====
section
/-! SUPPORT. The model's own tests. Expected values are the spec's: 95_test_vectors.md (sections and vector numbers are
named), or the rule's own worked example. The witnesses at the end show, for each statement with hypotheses, a state and
operands that meet them together. -/

namespace Sys2Proof.Tests

open Sys2Proof Sys2Proof.Machine Sys2Proof.Config

/-! ### Well-formedness: an ill-formed term for each check -/

theorem test_wf_refuses_cmd_iaqInit : (Instr.cmd 0x2003 0).wf = false := by decide
theorem test_wf_refuses_cmd_measIaq : (Instr.cmd 0x2008 0).wf = false := by decide
theorem test_wf_refuses_cmd_measRaw : (Instr.cmd 0x2050 7).wf = false := by decide
theorem test_wf_refuses_cmd_setBaseline : (Instr.cmd 0x201E 0).wf = false := by decide
theorem test_wf_refuses_cmdw_setAh : (Instr.cmdw 0x2061 0x0B7C).wf = false := by decide
theorem test_wf_accepts_bare_2061 : (Instr.cmd 0x2061 0).wf = true := by decide

/-! ### Decoding: words written out from R56, R58, R63, R54 -/

/-- What a table row's bits decode to. -/
theorem test_decode_crc8 : decodeTableWord 40 0b0000000110111110111011110000000000000000 = some (.crc8 0xBE 0xEF 0) := rfl
theorem test_decode_cmd : decodeTableWord 40 0b0000001000100000011000010000000000000000 = some (.cmd 0x2061 0) := rfl
theorem test_decode_cmdw : decodeTableWord 40 0b0000001100010010001101000000000110010000 = some (.cmdw 0x1234 0x0190) := rfl
theorem test_decode_resp : decodeTableWord 40 0b0000010011011110101011011011111011101111 = some (.resp 0xDEADBEEF) := rfl
theorem test_decode_cfgwr : decodeTableWord 40 0b0000010111111111111111111111111111111101 = some (.cfgwr 1 0x3FFFFFFF) := rfl
theorem test_decode_rdreg : decodeTableWord 40 0b0000011000010010001101001111111111110100 = some (.rdreg 4 0x1234FFF) := rfl
theorem test_decode_iaqInit : decodeTableWord 40 0b0000001000100000000000110000000000000000 = some (.iaqInit 0) := rfl
theorem test_decode_measIaq : decodeTableWord 40 0b0000001000100000000010001010101111001101 = some (.measIaq 0xABCD) := rfl
theorem test_decode_measRaw : decodeTableWord 40 0b0000001000100000010100000000000000000000 = some (.measRaw 0) := rfl
theorem test_decode_setAh : decodeTableWord 40 0b0000001100100000011000010000101101111100 = some (.setAh 0x0B7C) := rfl
theorem test_decode_setBaseline : decodeTableWord 40 0b0000001000100000000111100000000000000000 = some (.setBaseline 0) := rfl
theorem test_decode_wireIaqInit : decodeTableWord 16 0b0010000000000011 = some .wireIaqInit := rfl
theorem test_decode_wireMeasIaq : decodeTableWord 16 0b0010000000001000 = some .wireMeasIaq := rfl
theorem test_decode_wireMeasRaw : decodeTableWord 16 0b0010000001010000 = some .wireMeasRaw := rfl
theorem test_decode_wireSetAh : decodeTableWord 16 0b0010000001100001 = some (.wireSetAh 0) := rfl
theorem test_decode_wireSetBaseline : decodeTableWord 16 0b0010000000011110 = some .wireSetBaseline := rfl
/-- Undefined OP 0x00, 0x07 and 0xFF (R60). -/
theorem test_decode_undefined : decodeTableWord 40 0 = none ∧ decodeTableWord 40 0x0700000000 = none ∧
    decodeTableWord 40 0xFF20080000 = none := ⟨rfl, rfl, rfl⟩

/-- R62, R63: request words of the assembler. -/
theorem test_assemble : assemble (.rdreg 10 5) = .req 0x060000000A ∧ assemble (.setAh 0x0B7C) = .req 0x0320610B7C ∧
    assemble (.cfgwr 2 9) = .req 0x0500000002 := ⟨rfl, rfl, rfl⟩

/-! ### The CRC engine: R70 to R76's worked values, sections 2.1 to 2.4 -/

theorem test_crc8Bit : crc8Bit 0xFF = 0xCF ∧ crc8Bit 0x41 = 0x82 ∧ crc8Bit 0x80 = 0x31 ∧ crc8Bit 0x7F = 0xFE := by decide
theorem test_crc8 : crc8 0x00 0x00 = 0x81 ∧ crc8 0xBE 0xEF = 0x92 ∧ crc8 0x01 0x90 = 0x4C ∧ crc8 0x00 0x50 = 0xFF ∧
    crc8 0x00 0x01 = 0xB0 ∧ crc8 0x01 0x00 = 0x75 := by decide +kernel
theorem test_crcOk : crcOk 0xFF 0x00 0x00 = true ∧ crcOk 0x00 0x00 0x00 = false := by decide +kernel
theorem test_crc8Wide : crc8Wide 0xBE 0xEF = 0x92 := by decide
theorem test_crcTable : crcTable[0x41]? = some 0x0C ∧ crcTable[0xE3]? = some 0x92 := by decide

/-! ### Frames and response layouts: section 2.5 -/

theorem test_frameCmd : frameCmd 0x00FF = [0x00, 0xFF] := by decide
theorem test_frameCmdw : frameCmdw 0x1234 0x0190 = [0x12, 0x34, 0x01, 0x90, 0x4C] := by decide +kernel
theorem test_decodeResp_A : decodeResp .A true [0x01, 0x90, 0x00, 0x50, 0x00, 0x00] = ⟨0x0190, 0x5000, false⟩ := by decide +kernel
theorem test_decodeResp_B : decodeResp .B true [0x01, 0x90, 0x00, 0x50] = ⟨0x0190, 0x0050, true⟩ := by decide

/-! ### One step each: section 2.5, vectors V1 to V24 -/

/-- The next state, if there is one. -/
def nextOf : Result → Option State
  | .next s => some s
  | .fault _ => none
  | .refused _ => none

/-- Reset state but for CFG, with one request at the port and the transport's answers. -/
def at' (cfg : BitVec 2) (r : Request) (as : List BusAnswer) : State :=
  { State.reset with cfg := cfg, reqs := [r], answers := as }

/-- The response, STATUS and the events of a step from there. -/
def seen (cfg : BitVec 2) (r : Request) (as : List BusAnswer) : Option (List (BitVec 40) × BitVec 3 × List BusEvent) :=
  (nextOf (step (at' cfg r as))).map fun t => (t.rsps, t.status, t.hist)

/-- RXBUF, RXLEN, W0 and W1 after a step from there. -/
def kept (cfg : BitVec 2) (r : Request) (as : List BusAnswer) : Option (List Byte × BitVec 3 × Word × Word) :=
  (nextOf (step (at' cfg r as))).map fun t => (t.rxbuf.toList, t.rxlen, t.w0, t.w1)

theorem test_crc8_op : seen 0 (.req 0x01BEEFFFFF) [] = some ([0x0000000092], 0, []) := by decide +kernel
theorem test_cmd_ok : seen 0 (.req 0x022008ABCD) [.returns []] =
    some ([0x0000000000], 0, [.wr 0x58 [0x20, 0x08] .ok]) := by decide
theorem test_cmd_unlisted : seen 0 (.req 0x02BEEF0000) [.returns []] =
    some ([0x0000000000], 0, [.wr 0x58 [0xBE, 0xEF] .ok]) := by decide
theorem test_measIaq_fail : seen 0 (.req 0x0220080000) [.fails] =
    some ([0x0100000000], 0b001, [.wr 0x58 [0x20, 0x08] .fail]) := by decide
theorem test_setAh_ok : seen 0 (.req 0x0320610B7C) [.returns []] =
    some ([0x0000000000], 0, [.wr 0x58 [0x20, 0x61, 0x0B, 0x7C, 0x1E] .ok]) := by decide +kernel
theorem test_cmdw_ok : seen 0 (.req 0x0312340190) [.returns []] =
    some ([0x0000000000], 0, [.wr 0x58 [0x12, 0x34, 0x01, 0x90, 0x4C] .ok]) := by decide +kernel
theorem test_setBaseline_ok : seen 0 (.req 0x02201E0000) [.returns []] =
    some ([0x0000000000], 0, [.wr 0x58 [0x20, 0x1E] .ok]) := by decide
theorem test_wireSetAh_fail : seen 0 (.wire 0x2061 (some 0)) [.fails] =
    some ([0x0100000000], 0b001, [.wr 0x58 [0x20, 0x61, 0x00, 0x00, 0x81] .fail]) := by decide +kernel
/-- V9 and the worked example of R86. -/
theorem test_resp_accepted : seen 0b10 (.req 0x0400000000) [.returns [0x01, 0x90, 0x4C, 0x00, 0x50, 0xFF]] =
    some ([0x0000500190], 0b100, [.rd 0x58 6 (.bytes [0x01, 0x90, 0x4C, 0x00, 0x50, 0xFF])]) := by decide +kernel
/-- V11. -/
theorem test_resp_mismatch : kept 0b10 (.req 0x0400000000) [.returns [0x01, 0x90, 0x4D, 0x00, 0x50, 0xFF]] =
    some ([0x01, 0x90, 0x4D, 0x00, 0x50, 0xFF], 6, 0, 0) := by decide +kernel
/-- Section 1.1, second row: five bytes under variant A fail. -/
theorem test_resp_short : seen 0b10 (.req 0x0400000000) [.returns [0x01, 0x90, 0x00, 0x50, 0x00]] =
    some ([0x0100000000], 0b001, [.rd 0x58 6 .fail]) := by decide
/-- Section 1.1, first row (P5): of the same five bytes variant B takes four. -/
theorem test_resp_variant_B : kept 0b01 (.req 0x0400000000) [.returns [0x01, 0x90, 0x00, 0x50, 0x00]] =
    some ([0x01, 0x90, 0x00, 0x50, 0x00, 0x00], 4, 0x0190, 0x0050) := by decide
/-- V13. -/
theorem test_resp_stall : nextOf (step (at' 0b10 (.req 0x0400000000) [])) = none := by decide
/-- V18. -/
theorem test_cfgwr : (nextOf (step (at' 0 (.req 0x05FFFFFFFD) []))).map (fun t => (t.cfg, t.rsps)) =
    some (0b01, [0x0000000001]) := by decide
/-- V22. -/
theorem test_rdreg_addr : seen 0 (.req 0x061234FFF4) [] = some ([0x0000000058], 0, []) := by decide
/-- V21. -/
theorem test_rdreg_reserved : seen 0 (.req 0x0600000006) [] = some ([0x0300000000], 0, []) := by decide
/-- V24. -/
theorem test_undefined_op : seen 0 (.req 0xFF20080000) [] = some ([0x0300000000], 0, []) := by decide
/-- R130, R32: a reset keeps the history and frees a stalled block. -/
theorem test_reset_frees : (nextOf (step { at' 0b10 (.req 0x0400000000) [] with
    hist := [.wr 0x58 [0x20, 0x08] .ok], resetIn := true })).map (fun t => (t.cfg, t.hist, t.reqs, t.rsps)) =
    some (0, [.wr 0x58 [0x20, 0x08] .ok], [], []) := by decide
/-- A table row's bits are run by the very next step after reset, also a bus read's. -/
theorem test_withFetchWord : (nextOf (step (State.reset.withFetchWord 16 0x2003))).map (·.hist) =
    some [.wr 0x58 [0x20, 0x03] .ok] ∧
    (nextOf (step (State.reset.withFetchWord 40 0x0400000000))).map (·.rxlen) = some 6 := by decide

/-! ### The host's obligations: programs P2 and P1 of section 3, in that order, keep them -/

theorem test_hostObeys : hostObeys { tAhMs := 0 } [.request (.req 0x0220030000) .ok, .pause 10, .pause 15000,
    .request (.req 0x0320610B7C) .ok, .request (.req 0x0500000002) .ok, .request (.req 0x0220080000) .ok, .pause 12,
    .request (.req 0x0400000000) .ok] = true := by decide
/-- R134: a RESP one millisecond early breaks them. -/
theorem test_hostObeys_early : hostObeys { tAhMs := 0 } [.request (.req 0x0220030000) .ok, .pause 15000,
    .request (.req 0x0220080000) .ok, .pause 11, .request (.req 0x0400000000) .ok] = false := by decide

/-- R139: between a measurement and its RESP a CFGWR may change CRCCHK, and VARIANT only where the host means it. -/
theorem test_hostObeys_cfgwr : hostObeys { tAhMs := 0 } [.request (.req 0x0220030000) .ok, .pause 15000,
      .request (.req 0x0220080000) .ok, .request (.req 0x0500000002) .ok, .pause 12, .request (.req 0x0400000000) .ok] = true ∧
    hostObeys { tAhMs := 0 } [.request (.req 0x0220030000) .ok, .pause 15000, .request (.req 0x0220080000) .ok,
      .request (.req 0x0500000001) .ok] = false ∧
    hostObeys { tAhMs := 0 } [.request (.req 0x0220030000) .ok, .pause 15000, .request (.req 0x0220080000) .ok,
      .meansNewLayout, .request (.req 0x0500000001) .ok, .pause 12, .request (.req 0x0400000000) .ok] = true := by decide
/-- U16: a host that sets the open delay after SET_AH owes it. -/
theorem test_hostObeys_setAh : hostObeys { tAhMs := 3 } [.request (.req 0x0320610B7C) .ok, .pause 2,
      .request (.req 0x02201E0000) .ok] = false ∧
    hostObeys { tAhMs := 3 } [.request (.req 0x0320610B7C) .ok, .pause 3, .request (.req 0x02201E0000) .ok] = true := by decide
/-- R140's table. -/
theorem test_hostDelays_defaults : let d : HostDelays := { tAhMs := 0 }
    (d.tMeasMs, d.tRawMs, d.tCmdMs, d.tBurninMs, d.tPeriodMs) = (12, 25, 10, 15000, 1000) := rfl

/-! ### Witnesses: for each statement with hypotheses, a state and operands that meet them -/

/-- A state with a reading accepted, in strict mode: the state after the worked example of R86. -/
def readingState : State :=
  { State.reset with
    cfg := 0b10, status := 0b100, w0 := 0x0190, w1 := 0x0050, rxlen := 6
    rxbuf := #v[0x01, 0x90, 0x4C, 0x00, 0x50, 0xFF]
    hist := [.rd 0x58 6 (.bytes [0x01, 0x90, 0x4C, 0x00, 0x50, 0xFF])], rsps := [0x0000500190] }

theorem witness_DecodeOfEncodeIsInstr : (Instr.cmd 0x2061 0xABCD).wf = true ∧ (Instr.cmdw 0x201E 0xFFFF).wf = true := by decide

theorem witness_EncodeOfDecodedRequestWord : decode (.req 0x06FFFFFFFF) = .ok (.rdreg 15 0xFFFFFFF) := rfl

theorem witness_CmdResult : { readingState with answers := [.returns []] }.answers = .returns [] :: [] ∧
    { readingState with answers := [.fails] }.answers = .fails :: [] := ⟨rfl, rfl⟩

theorem witness_CmdwResult : { readingState with answers := [.returns [1], .fails] }.answers = .returns [1] :: [.fails] ∧
    { readingState with answers := [.fails, .fails] }.answers = .fails :: [.fails] := ⟨rfl, rfl⟩

theorem witness_DeviceCommandResults : { readingState with answers := [.fails] }.answers = .fails :: [] ∧
    { readingState with answers := [.returns []] }.answers = .returns [] :: [] ∧
    (Instr.wireSetBaseline, [0x20#8, 0x1E#8]) ∈
      [(Instr.iaqInit 0, [0x20#8, 0x03#8]), (Instr.wireSetBaseline, [0x20#8, 0x1E#8])] := by decide

theorem witness_SetHumidityResults : { readingState with answers := [.fails] }.answers = .fails :: [] ∧
    { readingState with answers := [.returns []] }.answers = .returns [] :: [] ∧
    Instr.wireSetAh 0xFFFF ∈ [Instr.setAh 0xFFFF, Instr.wireSetAh 0xFFFF] := by decide

/-- Each clause at its boundary: a supply one byte short, an exact one accepted, an exact one discarded, no answer. -/
theorem witness_RespResult : respLen (cfgVariant readingState.cfg) = 6 ∧
    [0x01#8, 0x90#8, 0x00#8, 0x50#8, 0x00#8].length < 6 ∧
    6 ≤ [0x01#8, 0x90#8, 0x4C#8, 0x00#8, 0x50#8, 0xFF#8].length ∧
    (decodeResp (cfgVariant readingState.cfg) (cfgCrcchk readingState.cfg)
      ([0x01#8, 0x90#8, 0x4C#8, 0x00#8, 0x50#8, 0xFF#8].take 6)).ok = true ∧
    (decodeResp (cfgVariant readingState.cfg) (cfgCrcchk readingState.cfg)
      ([0x01#8, 0x90#8, 0x4C#8, 0x00#8, 0x50#8, 0xFE#8].take 6)).ok = false ∧
    readingState.answers = [] := by decide +kernel

theorem witness_ValidationPolicy :
    respLen (cfgVariant readingState.cfg) ≤ [0x01#8, 0x9A#8, 0x97#8, 0x00#8, 0x0C#8, 0xFD#8].length ∧
    { readingState with answers := [.returns [0x01, 0x9A, 0x97, 0x00, 0x0C, 0xFD]] }.answers =
      .returns [0x01, 0x9A, 0x97, 0x00, 0x0C, 0xFD] :: [] ∧
    readingState.cfg = 0b10#2 ∧ State.reset.cfg ≠ 0b10#2 ∧
    respLen (cfgVariant State.reset.cfg) ≤ [0x01#8, 0x9A#8, 0x97#8, 0x00#8, 0x0C#8, 0xFD#8].length := by decide

theorem witness_ChecksumMismatchEffect : readingState.cfg = 0b10#2 ∧ (0x93#8 ≠ crc8 0xBE 0xEF ∨ 0x92#8 ≠ crc8 0xBE 0xEF) ∧
    (nextOf (exec (.resp 0) { readingState with
      answers := [.returns [0xBE, 0xEF, 0x93, 0xBE, 0xEF, 0x92]] })).map (·.rsps) =
      some (readingState.rsps ++ [rspWord .checksumMismatch 0x0050 0x0190]) := by decide +kernel

theorem witness_VariantBIgnoresCrcchk : ({ readingState with cfg := 0b11 } : State).cfg = 0b11#2 ∧
    ({ readingState with cfg := 0b01 } : State).cfg = 0b01#2 ∧
    { readingState with cfg := 0b01, answers := [.returns [0xAA, 0xBB, 0xCC, 0xDD, 0xEE]] }.answers =
      .returns [0xAA, 0xBB, 0xCC, 0xDD, 0xEE] :: [] ∧
    { readingState with answers := [.returns [0xAA, 0xBB, 0xCC, 0xDD]] }.answers =
      .returns [0xAA, 0xBB, 0xCC, 0xDD] :: [] := by decide

theorem witness_RdregResult : ((15 : BitVec 4) ∈ ([6, 7, 14, 15] : List (BitVec 4))) ∧
    (((13 : BitVec 4), 0#8 ++ readingState.rxbuf[5]) : BitVec 4 × Word) ∈ ([(13, 0x00FF)] : List (BitVec 4 × Word)) := by decide

/-- Both ends of the undefined range, and OP 0x00. -/
theorem witness_UndefinedOpAnswersIllegalRequest :
    (at' 0 (.req 0x0700000000) []).resetIn = false ∧ (at' 0 (.req 0x0700000000) []).reqs = .req 0x0700000000 :: [] ∧
    7 ≤ (0x0700000000#40).toNat / 2 ^ 32 ∧ 7 ≤ (0xFFFFFFFFFF#40).toNat / 2 ^ 32 ∧
    (0x00FFFFFFFF#40).toNat / 2 ^ 32 = 0 := by decide

theorem witness_IllegalRequestHasNoEffect : (at' 0 (.req 0x060000000E) []).resetIn = false ∧
    (at' 0 (.req 0x060000000E) []).reqs = .req 0x060000000E :: [] ∧
    (nextOf (step (at' 0 (.req 0x060000000E) []))).isSome = true ∧
    (nextOf (step (at' 0 (.req 0x0000000000) []))).isSome = true := by decide

theorem witness_OneResponsePerRequest : (nextOf (exec (.rdreg 14 0) readingState)).isSome = true ∧
    (nextOf (exec (.resp 0) { readingState with answers := [.fails] })).isSome = true ∧
    decode (.req 0x0000000000) = .error (.undefinedOp 0) := ⟨rfl, rfl, rfl⟩

theorem witness_AnswerOnlyFrame : (nextOf (exec (.crc8 1 2 3) readingState)).isSome = true ∧
    (nextOf (exec (.rdreg 7 3) readingState)).isSome = true := by decide

theorem witness_BusWriteFrame : busCommand (.wireSetAh 5) = some (0x2061, true) ∧
    (nextOf (exec (.wireSetAh 5) { readingState with answers := [.fails] })).isSome = true ∧
    busCommand (.cmd 0x2003 0) = some (0x2003, false) ∧
    (nextOf (exec (.cmd 0x2003 0) { readingState with answers := [.returns []] })).isSome = true := by decide

theorem witness_RespFrame : (nextOf (exec (.resp 0) { readingState with cfg := 1, answers := [.returns [1, 2, 3, 4]] })).map
      (fun t => (t.rxbuf.toList, t.rxlen)) = some ([1, 2, 3, 4, 0x50, 0xFF], 4) ∧
    (nextOf (exec (.resp 0) { readingState with answers := [.fails] })).map (·.rsps) =
      some (readingState.rsps ++ [rspWord .transportError 0x0050 0x0190]) := by decide

/-- A register of each kind does change. -/
theorem witness_RegistersWrittenOnlyBy :
    (nextOf (exec (.cfgwr 1 0) readingState)).map (·.cfg) = some 1 ∧
    (nextOf (exec (.resp 0) { readingState with answers := [.returns [0, 0, 0x81, 0, 0, 0x81]] })).map
      (fun t => (t.w0, t.rxbuf[0])) = some (0, 0) ∧
    (nextOf (exec (.cmd 0 0) { readingState with answers := [.fails] })).map (·.status) = some 0b101 := by decide +kernel

theorem witness_StatusUpdatePolicy : usesBus (.cfgwr 1 0) = false ∧ usesBus (.cmd 0 0) = true ∧
    statusValid readingState.status = true ∧ statusValid State.reset.status = false ∧
    (nextOf (exec (.resp 0) { State.reset with answers := [.returns [1, 2, 3, 4, 5, 6]] })).map
      (fun t => (statusValid t.status, t.rsps)) = some (true, [rspWord .ok 0x0405 0x0102]) := by decide

theorem witness_AddrConstantAndLengthsFixed : usesBus (.resp 0) = true ∧
    (nextOf (exec (.resp 0) { readingState with answers := [.fails] })).isSome = true ∧
    usesBus (.crc8 0 0 0) = false := by decide

theorem witness_StepRunsDecodedInstruction : (at' 0 (.req 0x05FFFFFFFD) []).resetIn = false ∧
    (at' 0 (.req 0x05FFFFFFFD) []).reqs = .req 0x05FFFFFFFD :: [] ∧
    decode (.req 0x05FFFFFFFD) = .ok (.cfgwr 1 0x3FFFFFFF) := ⟨rfl, rfl, rfl⟩

theorem witness_StepWaitsForRequest : readingState.resetIn = false ∧ readingState.reqs = [] := by decide

/-- Both clauses: RDREG at the port without an answer is not in progress, RESP is. -/
theorem witness_BlockResetStep : ({ readingState with resetIn := true, reqs := [.req 0x0600000000] } : State).resetIn = true ∧
    step { readingState with resetIn := false, reqs := [.req 0x0600000000] } ≠ .fault .busStalled ∧
    step { readingState with resetIn := false, reqs := [.req 0x0400000000] } = .fault .busStalled :=
  ⟨rfl, nofun, rfl⟩

theorem witness_OnlyUnansweredBusOperationStalls : (at' 0 (.req 0x0400000000) []).resetIn = false ∧
    (at' 0 (.req 0x0400000000) []).answers = [] ∧ decode (.req 0x0400000000) = .ok (.resp 0) := ⟨rfl, rfl, rfl⟩

theorem witness_StallFreedByReset : (at' 0 (.req 0x02BEEF0000) []).reqs = .req 0x02BEEF0000 :: [] ∧
    (at' 0 (.req 0x02BEEF0000) []).answers = [] ∧ (at' 0 (.req 0x02BEEF0000) []).resetIn = false ∧
    decode (.req 0x02BEEF0000) = .ok (.cmd 0xBEEF 0) ∧ busCommand (.cmd 0xBEEF 0) ≠ none :=
  ⟨rfl, rfl, rfl, rfl, by decide⟩

theorem witness_HistoryOnlyGrows : (nextOf (step (at' 0 (.req 0x0220080000) [.fails]))).isSome = true := by decide

/-- The invariant holds in a state with VALID set, bytes held and a response given. -/
theorem readingState_inv : readingState.Inv where
  oneError := by decide
  terrLast h := absurd h (by decide)
  cerrLast h := absurd h (by decide)
  noReading h := absurd h (by decide)
  reading _ := ⟨.A, [0x01, 0x90, 0x4C, 0x00, 0x50, 0xFF], by decide⟩
  rxlenLegal := by decide
  rxHolds _ := ⟨[0x01, 0x90, 0x4C, 0x00, 0x50, 0xFF], by decide⟩
  histLegal := by decide
  rspsLegal := by simp [readingState, rspLegal]

theorem witness_StepKeepsInv : ({ readingState with reqs := [.req 0x0400000000], answers := [.fails] } : State).Inv ∧
    (nextOf (step { readingState with reqs := [.req 0x0400000000], answers := [.fails] })).isSome = true :=
  ⟨⟨readingState_inv.oneError, readingState_inv.terrLast, readingState_inv.cerrLast, readingState_inv.noReading,
    readingState_inv.reading, readingState_inv.rxlenLegal, readingState_inv.rxHolds, readingState_inv.histLegal,
    readingState_inv.rspsLegal⟩, by decide⟩

theorem witness_HistoryIsNeverRead :
    (nextOf (step { readingState with reqs := [.req 0x0400000000], answers := [.fails] })).isSome = true := by decide

theorem witness_StatusIsNeverRead : (∀ x, Instr.rdreg 0 0 ≠ .rdreg 1 x) ∧
    (nextOf (exec (.rdreg 0 0) readingState)).isSome = true ∧
    (nextOf (exec (.cmd 5 0) { readingState with answers := [.fails] })).isSome = true :=
  ⟨fun _ h => absurd h (by simp), rfl, rfl⟩

/-- Three requests of which two use the bus, with the reset input released and asserted; and RDREG without any answer. -/
theorem witness_EveryRequestIsServed :
    TransportFailsFast { readingState with reqs := [.req 0x0220080000, .req 0x0400000000, .req 0], answers :=
      [.fails, .fails] } ∧
    TransportFailsFast { readingState with resetIn := true, reqs := [.req 0x0220080000], answers := [.fails] } ∧
    TransportFailsFast { readingState with reqs := [.req 0x0600000000], answers := [] } := by
  simp only [TransportFailsFast]; decide

theorem witness_EachStepServesARequest :
    TransportFailsFast { readingState with reqs := [.req 0x0400000000, .req 0], answers := [.fails] } ∧
    requestUsesBus (.req 0x0400000000) = true ∧ requestUsesBus (.req 0) = false := by
  simp only [TransportFailsFast]; decide

theorem witness_ObedientHostWaitsBeforeResp : hostObeys { tAhMs := 0 } ([.request (.req 0x0220030000) .ok, .pause 15010,
    .request (.req 0x0220080000) .ok, .pause 12] ++ [.request (.req 0x0400000000) .ok] ++ []) = true ∧
    decode (.req 0x0400000000) = .ok (.resp 0) := ⟨by decide, rfl⟩

theorem witness_ObedientHostKeepsVariant : hostObeys { tAhMs := 0 } ([.request (.req 0x0220030000) .ok, .pause 15000] ++
      [.request (.req 0x0220080000) .ok] ++ [.pause 3] ++ [.request (.req 0x0500000002) .ok] ++ []) = true ∧
    decode (.req 0x0220080000) = .ok (.measIaq 0) ∧ busCommand (.measIaq 0) = some (0x2008, false) ∧
    (∀ a ∈ [HostAction.pause 3], a.isResp = false) ∧
    HostAction.meansNewLayout ∉ [HostAction.request (.req 0x0220030000) .ok, .pause 15000] ++ [.pause 3] ∧
    decode (.req 0x0500000002) = .ok (.cfgwr 2 0) := ⟨by decide, rfl, rfl, by decide, by decide, rfl⟩

theorem witness_ObedientHostInitialisesFirst : hostObeys { tAhMs := 0 } ([.request (.req 0x0220030000) .ok, .pause 15010] ++
    [.request (.req 0x0220500000) .ok] ++ []) = true ∧ decode (.req 0x0220500000) = .ok (.measRaw 0) ∧
    busCommand (.measRaw 0) = some (0x2050, false) := ⟨by decide, rfl, rfl⟩

end Sys2Proof.Tests
end

namespace Sys2Proof.Machine

/-! ## When an operation has no step (R9, R30, R31)

Each lemma names the only two outcomes of its operation, `.fault .busStalled` and `.next`, each with the condition it occurs
under; neither is a refusal, and the conditions exclude each other. -/

theorem answers_ne_nil_of_head? {s : State} {a : Config.BusAnswer} (h : s.answers.head? = some a) : s.answers ≠ [] :=
  List.ne_nil_of_mem (List.mem_of_mem_head? h)

theorem writeFrame_stalls_or_next (v : List Byte) (s : State) :
    (s.answers = [] ∧ writeFrame v s = .fault .busStalled) ∨ (s.answers ≠ [] ∧ ∃ t, writeFrame v s = .next t) := by
  obtain h | ⟨a, ha, -, h⟩ | ⟨a, ha, -, h⟩ := writeFrame_cases v s
  · exact .inl h
  · exact .inr ⟨answers_ne_nil_of_head? ha, _, h⟩
  · exact .inr ⟨answers_ne_nil_of_head? ha, _, h⟩

theorem readResponse_stalls_or_next (s : State) :
    (s.answers = [] ∧ readResponse s = .fault .busStalled) ∨ (s.answers ≠ [] ∧ ∃ t, readResponse s = .next t) := by
  obtain h | ⟨a, ha, -, h⟩ | ⟨a, b, ha, -, h⟩ := readResponse_cases s
  · exact .inl h
  · exact .inr ⟨answers_ne_nil_of_head? ha, _, h⟩
  · exact .inr ⟨answers_ne_nil_of_head? ha, _, h⟩

theorem exec_stalls_or_next (i : Instr) (s : State) :
    (usesBus i = true ∧ s.answers = [] ∧ exec i s = .fault .busStalled) ∨
    ((usesBus i = false ∨ s.answers ≠ []) ∧ ∃ t, exec i s = .next t) := by
  obtain ⟨hbus, v, -, h⟩ | ⟨x, rfl, h⟩ | ⟨v, x, rfl, h⟩ | ⟨hbus, c, d0, h⟩ := exec_cases i s
  case inl =>
    obtain ⟨ha, hw⟩ | ⟨ha, t, hw⟩ := writeFrame_stalls_or_next v s
    · exact .inl ⟨hbus, ha, h.trans hw⟩
    · exact .inr ⟨.inr ha, t, h.trans hw⟩
  case inr.inl =>
    obtain ⟨ha, hr⟩ | ⟨ha, t, hr⟩ := readResponse_stalls_or_next s
    · exact .inl ⟨rfl, ha, h.trans hr⟩
    · exact .inr ⟨.inr ha, t, h.trans hr⟩
  case inr.inr.inl => exact .inr ⟨.inl rfl, _, h⟩
  case inr.inr.inr => exact .inr ⟨.inl hbus, _, h⟩

theorem stalled_of_no_request {s : State} (h : s.reqs = []) : stalled s = false := by
  simp [stalled, h]

theorem stalled_of_request {s : State} {r : Request} {rest : List Request} (h : s.reqs = r :: rest) :
    stalled s = (requestUsesBus r && s.answers.isEmpty) := by
  simp [stalled, h]

theorem requestUsesBus_iff (r : Request) :
    requestUsesBus r = true ↔ ∃ i, decode r = .ok i ∧ (busCommand i ≠ none ∨ ∃ x, i = .resp x) := by
  cases hd : decode r with
  | ok i => simp [requestUsesBus_of_ok hd, usesBus_iff]
  | error e => simp [requestUsesBus_of_error hd]

/-- A request is in progress at a stalled primitive: the port's first request decodes to a bus operation and the transport
has no answer (R31 outcome 3; log entries 2, 3). -/
theorem stalled_iff (s : State) :
    stalled s = true ↔ s.answers = [] ∧ ∃ (r : Request) (rest : List Request) (i : Instr),
      s.reqs = r :: rest ∧ decode r = .ok i ∧ (busCommand i ≠ none ∨ ∃ x, i = .resp x) := by
  cases hq : s.reqs with
  | nil => simp [stalled_of_no_request hq]
  | cons r rest =>
    rw [stalled_of_request hq, Bool.and_eq_true, requestUsesBus_iff, List.isEmpty_iff, and_comm]
    simp

theorem step_stalls_or_next (s : State) :
    (s.resetIn = false ∧ stalled s = true ∧ step s = .fault .busStalled) ∨
    ((s.resetIn = true ∨ stalled s = false) ∧ ∃ t, step s = .next t) := by
  obtain ⟨hr, h⟩ | ⟨-, hq, h⟩ | ⟨hr, r, rest, i, hq, hd, h⟩ | ⟨-, r, rest, e, hq, hd, h⟩ := step_cases s
  case inl => exact .inr ⟨.inl hr, _, h⟩
  case inr.inl => exact .inr ⟨.inr (stalled_of_no_request hq), _, h⟩
  case inr.inr.inl =>
    have hs : stalled s = (usesBus i && s.answers.isEmpty) := by
      rw [stalled_of_request hq, requestUsesBus_of_ok hd]
    obtain ⟨hbus, ha, he⟩ | ⟨hfree, t, he⟩ := exec_stalls_or_next i (takeRequest s)
    · exact .inl ⟨hr, by simpa [hs, hbus] using ha, h.trans he⟩
    · exact .inr ⟨.inr (by simpa [hs, or_iff_not_imp_left] using hfree), t, h.trans he⟩
  case inr.inr.inr =>
    have hs : stalled s = false := by
      rw [stalled_of_request hq, requestUsesBus_of_error hd, Bool.false_and]
    exact .inr ⟨.inr hs, _, h⟩

/-- With reset released, a step is missing exactly at a stalled primitive (R9, R31). -/
theorem step_eq_busStalled_iff {s : State} (hr : s.resetIn = false) :
    step s = .fault .busStalled ↔ stalled s = true := by
  obtain ⟨-, hs, h⟩ | ⟨hfree, t, h⟩ := step_stalls_or_next s
  · simp [h, hs]
  · have hs : stalled s = false := hfree.resolve_left (by simp [hr])
    simp [h, hs]

/-- With reset asserted there is always a step (R130, R137; log entry 4). -/
theorem step_next_of_resetIn {s : State} (hr : s.resetIn = true) : step s = .next (blockReset s) := by
  simp [step, hr]

theorem step_ne_refused (s : State) (ρ : Refusal) : step s ≠ .refused ρ := by
  obtain ⟨-, -, h⟩ | ⟨-, t, h⟩ := step_stalls_or_next s
  · simp [h]
  · simp [h]

/-- Settles O37: a step is a stall exactly where `stalled` says so, and `next` everywhere else. -/
theorem onlyUnansweredBusOperationStalls : Obligations.OnlyUnansweredBusOperationStalls :=
  ⟨fun s hr => (step_eq_busStalled_iff hr).trans (stalled_iff s),
    fun s hr => ⟨blockReset s, step_next_of_resetIn hr⟩,
    step_ne_refused⟩

end Sys2Proof.Machine

namespace Sys2Proof.Machine

open Config

/-! ## Response words (R57) -/

theorem rspCode_st_inj {c c' : RspCode} (h : c.st = c'.st) : c = c' := by
  revert h
  cases c <;> cases c' <;> decide

@[simp] theorem reqOp_rspWord (c : RspCode) (d1 d0 : Word) : reqOp (rspWord c d1 d0) = c.st :=
  reqOp_reqWord c.st d1 d0

/-- A response word has one reading: its three fields determine it and are determined by it. -/
@[simp] theorem rspWord_inj (c c' : RspCode) (d1 d0 e1 e0 : Word) :
    rspWord c d1 d0 = rspWord c' e1 e0 ↔ c = c' ∧ d1 = e1 ∧ d0 = e0 := by
  constructor
  · intro h
    have hA : reqA (rspWord c d1 d0) = reqA (rspWord c' e1 e0) := congrArg reqA h
    have hB : reqB (rspWord c d1 d0) = reqB (rspWord c' e1 e0) := congrArg reqB h
    refine ⟨rspCode_st_inj (by simpa using congrArg reqOp h), ?_, ?_⟩
    · simpa using (reqA_reqWord c.st d1 d0).symm.trans (hA.trans (reqA_reqWord c'.st e1 e0))
    · simpa using (reqB_reqWord c.st d1 d0).symm.trans (hB.trans (reqB_reqWord c'.st e1 e0))
  · rintro ⟨rfl, rfl, rfl⟩
    rfl

theorem rspLegal_rspWord (c : RspCode) (d1 d0 : Word) : rspLegal (rspWord c d1 d0) = true := by
  have hop : rspLegal (rspWord c d1 d0) = decide (c.st.toNat ≤ 3) :=
    congrArg (fun x : BitVec 8 => decide (x.toNat ≤ 3)) (reqOp_rspWord c d1 d0)
  rw [hop]
  cases c <;> decide

/-! ## Fields read as wider words (R100, R101) -/

/-- Zeros put in front of a field are its zero-extension (R7). -/
theorem zeros_append {m n : Nat} (x : BitVec n) : (0#m ++ x : BitVec (m + n)) = x.setWidth (m + n) := by
  apply BitVec.eq_of_toNat_eq
  rw [append_toNat, BitVec.toNat_setWidth_of_le (Nat.le_add_left n m)]
  simp

/-! ## The decoding of a response (R85, R87) -/

/-- Strict variant A is one of the four values of CFG (R12, R13). -/
theorem strictA_iff (cfg : BitVec 2) : (cfgVariant cfg = .A ∧ cfgCrcchk cfg = true) ↔ cfg = 0b10#2 := by
  revert cfg
  decide

/-- Strict variant A accepts a response when both words' CRC bytes are valid. -/
theorem decodeResp_ok_strictA (b : List Byte) :
    (decodeResp .A true b).ok = true ↔
      crcOk (byteAt b 0) (byteAt b 1) (byteAt b 2) = true ∧ crcOk (byteAt b 3) (byteAt b 4) (byteAt b 5) = true := by
  simp [decodeResp]

/-- Only strict variant A discards a response. -/
theorem decodeResp_ok_of_ne_strictA {cfg : BitVec 2} (h : cfg ≠ 0b10#2) (b : List Byte) :
    (decodeResp (cfgVariant cfg) (cfgCrcchk cfg) b).ok = true := by
  have hAB := mt (strictA_iff cfg).mp h
  cases hv : cfgVariant cfg with
  | A =>
    have hchk : cfgCrcchk cfg = false := by simpa [hv] using hAB
    simp [decodeResp, hchk]
  | B => rfl

/-- The words decoded do not depend on the validation policy. -/
theorem decodeResp_w0_chk (v : Variant) (chk : Bool) (b : List Byte) :
    (decodeResp v chk b).w0 = (decodeResp v false b).w0 := by cases v <;> rfl

theorem decodeResp_w1_chk (v : Variant) (chk : Bool) (b : List Byte) :
    (decodeResp v chk b).w1 = (decodeResp v false b).w1 := by cases v <;> rfl

theorem byteAt_take {n k : Nat} (h : k < n) (b : List Byte) : byteAt (b.take n) k = byteAt b k := by
  simp [byteAt, h]

/-! ## Everything a completed instruction can have done

`Completes s i t` lists, with the condition of each, the next states of `exec i s`; `exec_eq_next_iff` ties it to the model.
No condition mentions the history, the responses presented or, RDREG 1 apart, STATUS. -/

/-- `i` writes the frame `v`, in every state. -/
structure Writes (i : Instr) (v : List Byte) : Prop where
  command : busCommand i ≠ none
  length : v.length = 2 ∨ v.length = 5
  exec_eq : ∀ s, exec i s = writeFrame v s

/-- Instruction `i`, performed in state `s`, completes in the state that stands last. -/
inductive Completes (s : State) : Instr → State → Prop where
  /-- A frame was written (R82, R83). -/
  | wrote {i : Instr} {v : List Byte} {a : BusAnswer} (frame : Writes i v) (answer : s.answers.head? = some a)
      (result : memWrite a = .ok) :
      Completes s i (respond .ok 0 0 (setErrors false false (logEvent (.wr devAddr v .ok) s)))
  /-- The write of a frame failed (R111). -/
  | writeFailed {i : Instr} {v : List Byte} {a : BusAnswer} (frame : Writes i v) (answer : s.answers.head? = some a)
      (result : memWrite a = .fail) :
      Completes s i (respond .transportError 0 0 (setErrors false true (logEvent (.wr devAddr v .fail) s)))
  /-- The read of a response failed (R86, R111). -/
  | readFailed {x : BitVec 32} {n : Nat} {a : BusAnswer} (len : n = respLen (cfgVariant s.cfg))
      (answer : s.answers.head? = some a) (result : memRead n a = .fail) :
      Completes s (.resp x)
        (respond .transportError s.w1 s.w0 (setErrors false true (logEvent (.rd devAddr n .fail) s)))
  /-- A response was read and accepted (R86). -/
  | accepted {x : BitVec 32} {n : Nat} {a : BusAnswer} {b : List Byte} {d : Decoded}
      (len : n = respLen (cfgVariant s.cfg)) (answer : s.answers.head? = some a) (result : memRead n a = .bytes b)
      (decoded : decodeResp (cfgVariant s.cfg) (cfgCrcchk s.cfg) b = d) (ok : d.ok = true) :
      Completes s (.resp x)
        (respond .ok d.w1 d.w0 (acceptReading d.w0 d.w1 (loadRx b (logEvent (.rd devAddr n (.bytes b)) s))))
  /-- A response was read and discarded (R86, R112). -/
  | discarded {x : BitVec 32} {n : Nat} {a : BusAnswer} {b : List Byte}
      (len : n = respLen (cfgVariant s.cfg)) (answer : s.answers.head? = some a) (result : memRead n a = .bytes b)
      (notOk : (decodeResp (cfgVariant s.cfg) (cfgCrcchk s.cfg) b).ok = false) :
      Completes s (.resp x)
        (respond .checksumMismatch s.w1 s.w0 (setErrors true false (loadRx b (logEvent (.rd devAddr n (.bytes b)) s))))
  /-- CFG was written (R100). -/
  | configured {v : BitVec 2} {x : BitVec 30} :
      Completes s (.cfgwr v x) (respond .ok 0 (v.setWidth 16) (writeCfg v s))
  /-- A checksum was answered (R74). -/
  | checksum {b0 b1 : Byte} {x : BitVec 16} : Completes s (.crc8 b0 b1 x) (respond .ok 0 ((crc8 b0 b1).setWidth 16) s)
  /-- A register was answered (R101). -/
  | register {r : BitVec 4} {x : BitVec 28} {reg : Reg} (index : regOfIndex r = some reg) :
      Completes s (.rdreg r x) (respond .ok 0 (readReg reg s) s)
  /-- A reserved index was rejected (R101, R113). -/
  | reserved {r : BitVec 4} {x : BitVec 28} (index : regOfIndex r = none) :
      Completes s (.rdreg r x) (respond .illegalRequest 0 0 s)

theorem exists_writes {i : Instr} (h : busCommand i ≠ none) : ∃ v, Writes i v := by
  cases i with
  | cmd c x => exact ⟨frameCmd c, h, .inl rfl, fun _ => rfl⟩
  | cmdw c d => exact ⟨frameCmdw c d, h, .inr rfl, fun _ => rfl⟩
  | iaqInit x => exact ⟨frameCmd 0x2003, h, .inl rfl, fun _ => rfl⟩
  | measIaq x => exact ⟨frameCmd 0x2008, h, .inl rfl, fun _ => rfl⟩
  | measRaw x => exact ⟨frameCmd 0x2050, h, .inl rfl, fun _ => rfl⟩
  | setAh d => exact ⟨frameCmdw 0x2061 d, h, .inr rfl, fun _ => rfl⟩
  | setBaseline x => exact ⟨frameCmd 0x201E, h, .inl rfl, fun _ => rfl⟩
  | wireIaqInit => exact ⟨frameCmd 0x2003, h, .inl rfl, fun _ => rfl⟩
  | wireMeasIaq => exact ⟨frameCmd 0x2008, h, .inl rfl, fun _ => rfl⟩
  | wireMeasRaw => exact ⟨frameCmd 0x2050, h, .inl rfl, fun _ => rfl⟩
  | wireSetAh d => exact ⟨frameCmdw 0x2061 d, h, .inr rfl, fun _ => rfl⟩
  | wireSetBaseline => exact ⟨frameCmd 0x201E, h, .inl rfl, fun _ => rfl⟩
  | crc8 b0 b1 x => exact absurd rfl h
  | resp x => exact absurd rfl h
  | cfgwr v x => exact absurd rfl h
  | rdreg r x => exact absurd rfl h

theorem Writes.usesBus {i : Instr} {v : List Byte} (h : Writes i v) : usesBus i = true :=
  (usesBus_iff i).mpr (.inl h.command)

theorem Writes.ne_resp {i : Instr} {v : List Byte} (h : Writes i v) (x : BitVec 32) : i ≠ .resp x := by
  rintro rfl
  exact h.command rfl

theorem Completes.of_writeFrame {s t : State} {i : Instr} {v : List Byte} (hv : Writes i v)
    (h : writeFrame v s = .next t) : Completes s i t := by
  obtain ⟨-, hw⟩ | ⟨a, ha, hr, hw⟩ | ⟨a, ha, hr, hw⟩ := writeFrame_cases v s <;> cases h.symm.trans hw
  · exact .wrote hv ha hr
  · exact .writeFailed hv ha hr

theorem Completes.of_readResponse {s t : State} (x : BitVec 32) (h : readResponse s = .next t) :
    Completes s (.resp x) t := by
  obtain ⟨-, hr⟩ | ⟨a, ha, hm, hr⟩ | ⟨a, b, ha, hm, hr⟩ := readResponse_cases s <;> cases h.symm.trans hr
  case inr.inl => exact .readFailed rfl ha hm
  case inr.inr =>
    obtain ⟨hok, hf⟩ | ⟨hok, hf⟩ := finishRead_cases b (logEvent (.rd s.addr (respLen (cfgVariant s.cfg)) (.bytes b)) s)
    · rw [hf]
      exact .accepted rfl ha hm rfl hok
    · rw [hf]
      exact .discarded rfl ha hm hok

theorem Completes.of_exec {i : Instr} {s t : State} (h : exec i s = .next t) : Completes s i t := by
  by_cases hc : busCommand i = none
  case neg =>
    obtain ⟨v, hv⟩ := exists_writes hc
    exact .of_writeFrame hv ((hv.exec_eq s).symm.trans h)
  case pos =>
    cases i with
    | crc8 b0 b1 x => cases h; exact .checksum
    | resp x => exact .of_readResponse x h
    | cfgwr v x => cases h; exact .configured
    | rdreg r x =>
      obtain ⟨hr, he⟩ | ⟨reg, hr, he⟩ := execRdreg_cases r x s <;> cases h.symm.trans he
      · exact .reserved hr
      · exact .register hr
    | _ => cases hc

theorem writeFrame_of_ok {s : State} {a : BusAnswer} (v : List Byte) (ha : s.answers.head? = some a)
    (hr : memWrite a = .ok) :
    writeFrame v s = .next (respond .ok 0 0 (setErrors false false (logEvent (.wr devAddr v .ok) s))) := by
  obtain ⟨rest, h⟩ := List.head?_eq_some_iff.mp ha
  simp [writeFrame, h, hr]

theorem writeFrame_of_fail {s : State} {a : BusAnswer} (v : List Byte) (ha : s.answers.head? = some a)
    (hr : memWrite a = .fail) :
    writeFrame v s = .next (respond .transportError 0 0 (setErrors false true (logEvent (.wr devAddr v .fail) s))) := by
  obtain ⟨rest, h⟩ := List.head?_eq_some_iff.mp ha
  simp [writeFrame, h, hr, raiseError, recordError, Error.code]

theorem readResponse_of_fail {s : State} {a : BusAnswer} (ha : s.answers.head? = some a)
    (hr : memRead (respLen (cfgVariant s.cfg)) a = .fail) :
    readResponse s = .next (respond .transportError s.w1 s.w0 (setErrors false true
      (logEvent (.rd devAddr (respLen (cfgVariant s.cfg)) .fail) s))) := by
  obtain ⟨rest, h⟩ := List.head?_eq_some_iff.mp ha
  simp [readResponse, h, hr, raiseError, recordError, Error.code]

theorem readResponse_of_bytes {s : State} {a : BusAnswer} {b : List Byte} (ha : s.answers.head? = some a)
    (hr : memRead (respLen (cfgVariant s.cfg)) a = .bytes b) :
    readResponse s =
      .next (finishRead b (logEvent (.rd devAddr (respLen (cfgVariant s.cfg)) (.bytes b)) s)) := by
  obtain ⟨rest, h⟩ := List.head?_eq_some_iff.mp ha
  simp [readResponse, h, hr]

theorem finishRead_of_ok {s : State} {b : List Byte} {d : Decoded}
    (hd : decodeResp (cfgVariant s.cfg) (cfgCrcchk s.cfg) b = d) (hok : d.ok = true) :
    finishRead b s = respond .ok d.w1 d.w0 (acceptReading d.w0 d.w1 (loadRx b s)) := by
  simp [finishRead, hd, hok]

theorem finishRead_of_not_ok {s : State} {b : List Byte}
    (hok : (decodeResp (cfgVariant s.cfg) (cfgCrcchk s.cfg) b).ok = false) :
    finishRead b s = respond .checksumMismatch s.w1 s.w0 (setErrors true false (loadRx b s)) := by
  simp [finishRead, hok, raiseError, recordError, Error.code]

theorem Completes.exec_eq {i : Instr} {s t : State} (h : Completes s i t) : exec i s = .next t := by
  cases h with
  | wrote hv ha hr => exact (hv.exec_eq s).trans (writeFrame_of_ok _ ha hr)
  | writeFailed hv ha hr => exact (hv.exec_eq s).trans (writeFrame_of_fail _ ha hr)
  | readFailed hn ha hr =>
    subst hn
    exact readResponse_of_fail ha hr
  | accepted hn ha hr hd hok =>
    subst hn
    exact (readResponse_of_bytes ha hr).trans (congrArg _ (finishRead_of_ok hd hok))
  | discarded hn ha hr hok =>
    subst hn
    exact (readResponse_of_bytes ha hr).trans (congrArg _ (finishRead_of_not_ok hok))
  | configured => rfl
  | checksum => rfl
  | register hr => simp [exec, execRdreg, hr]
  | reserved hr => simp [exec, execRdreg, hr, raiseError, recordError, Error.code]

theorem exec_eq_next_iff (i : Instr) (s t : State) : exec i s = .next t ↔ Completes s i t :=
  ⟨.of_exec, Completes.exec_eq⟩

/-! ## The invariant, preserved operation by operation -/

/-- The last completed read of a history with one event more. -/
theorem lastRead_append (h : List BusEvent) (e : BusEvent) : lastRead (h ++ [e]) = e.readBytes.or (lastRead h) := by
  induction h with
  | nil => cases hb : e.readBytes <;> simp [lastRead, hb]
  | cons x xs ih =>
    rw [List.cons_append, lastRead, ih, lastRead]
    cases e.readBytes <;> simp

/-- A frame written is a legal event (R37, R40). -/
theorem Writes.legal {i : Instr} {v : List Byte} (h : Writes i v) (r : WriteResult) :
    (BusEvent.wr devAddr v r).legal = true := by
  simpa [BusEvent.legal] using h.length

theorem legal_rd_fail (variant : Variant) : (BusEvent.rd devAddr (respLen variant) .fail).legal = true := by
  cases variant <;> rfl

theorem legal_rd_bytes {variant : Variant} {b : List Byte} (h : b.length = respLen variant) :
    (BusEvent.rd devAddr (respLen variant) (.bytes b)).legal = true := by
  cases variant <;> simpa [BusEvent.legal, respLen] using h

/-- More history and more responses leave an accepted reading one (R124). -/
theorem IsAcceptedReading.mono {h : List BusEvent} {q : List (BitVec 40)} {w0 w1 : Word}
    (hr : IsAcceptedReading h q w0 w1) (es : List BusEvent) (rs : List (BitVec 40)) :
    IsAcceptedReading (h ++ es) (q ++ rs) w0 w1 := by
  obtain ⟨variant, b, hb, h0, h1, hw⟩ := hr
  exact ⟨variant, b, List.mem_append_left es hb, h0, h1, List.mem_append_left rs hw⟩

theorem histLegal_append {h : List BusEvent} {e : BusEvent} (hh : ∀ x ∈ h, x.legal = true) (he : e.legal = true) :
    ∀ x ∈ h ++ [e], x.legal = true := by
  simp only [List.forall_mem_append, List.forall_mem_singleton]
  exact ⟨hh, he⟩

theorem rspsLegal_append {q : List (BitVec 40)} (hq : ∀ w ∈ q, rspLegal w = true) (c : RspCode) (d1 d0 : Word) :
    ∀ w ∈ q ++ [rspWord c d1 d0], rspLegal w = true := by
  simp only [List.forall_mem_append, List.forall_mem_singleton]
  exact ⟨hq, rspLegal_rspWord c d1 d0⟩

theorem respond_inv {s : State} (hs : s.Inv) (c : RspCode) (d1 d0 : Word) : (respond c d1 d0 s).Inv :=
  { hs with
    reading := fun hv => by simpa using (hs.reading hv).mono [] [rspWord c d1 d0]
    rspsLegal := rspsLegal_append hs.rspsLegal c d1 d0 }

theorem takeRequest_inv {s : State} (hs : s.Inv) : (takeRequest s).Inv := { hs with }

theorem writeCfg_inv {s : State} (hs : s.Inv) (v : BitVec 2) : (writeCfg v s).Inv := { hs with }

/-- A reset keeps only the history and the responses, which stay legal (R23, R32). -/
theorem blockReset_inv {s : State} (hh : ∀ e ∈ s.hist, e.legal = true) (hq : ∀ w ∈ s.rsps, rspLegal w = true) :
    (blockReset s).Inv where
  oneError h := absurd h.1 (by simp [statusTerr])
  terrLast h := absurd h (by simp [statusTerr])
  cerrLast h := absurd h (by simp [statusCerr])
  noReading _ := ⟨rfl, rfl⟩
  reading h := absurd h (by simp [statusValid])
  rxlenLegal := .inl rfl
  rxHolds h := absurd rfl h
  histLegal := hh
  rspsLegal := hq

/-- A bus event without read bytes: a write, or a failed read (R15, R19). -/
theorem unreadEvent_inv {s : State} (hs : s.Inv) {e : BusEvent} (he : e.legal = true) (hread : e.readBytes = none) :
    (setErrors false e.failed (logEvent e s)).Inv where
  oneError := by simp
  terrLast h := ⟨e, by simp, by simpa using h⟩
  cerrLast h := absurd h (by simp)
  noReading h := hs.noReading (by simpa using h)
  reading h := by simpa using (hs.reading (by simpa using h)).mono [e] []
  rxlenLegal := hs.rxlenLegal
  rxHolds h := by simpa [lastRead_append, hread] using hs.rxHolds h
  histLegal := histLegal_append hs.histLegal he
  rspsLegal := hs.rspsLegal

/-- RXLEN after a completed read (R19, R84). -/
theorem rxlenLegal_of_length {b : List Byte} {variant : Variant} (hb : b.length = respLen variant) :
    BitVec.ofNat 3 b.length = 0 ∨ BitVec.ofNat 3 b.length = 4 ∨ BitVec.ofNat 3 b.length = 6 := by
  cases variant <;> simp [hb, respLen]

/-- After a completed read RXBUF holds its bytes, RXLEN of them (R19). -/
theorem loadRx_rxHolds (s : State) {b : List Byte} {variant : Variant} (hb : b.length = respLen variant) :
    b.length = (loadRx b s).rxlen.toNat ∧ ∀ i : Fin 6, i.val < b.length → b[i.val]? = some (loadRx b s).rxbuf[i] := by
  constructor
  · cases variant <;> simp [hb, respLen]
  · intro i hi
    simp [hi]

/-- A response read and discarded: only in variant A, where it has 6 bytes (R15, R19, R87). -/
theorem discarded_inv {s : State} (hs : s.Inv) {b : List Byte} {variant : Variant} {chk : Bool}
    (hb : b.length = respLen variant) (hok : (decodeResp variant chk b).ok = false) :
    (setErrors true false (loadRx b (logEvent (.rd devAddr (respLen variant) (.bytes b)) s))).Inv where
  oneError := by simp
  terrLast h := absurd h (by simp)
  cerrLast _ := by
    cases variant with
    | A => cases chk with
      | false => exact absurd hok (by simp [decodeResp])
      | true => exact ⟨b, by simp [respLen], hok⟩
    | B => exact absurd hok (by simp [decodeResp])
  noReading h := hs.noReading (by simpa using h)
  reading h := by
    simpa using (hs.reading (by simpa using h)).mono [.rd devAddr (respLen variant) (.bytes b)] []
  rxlenLegal := rxlenLegal_of_length hb
  rxHolds _ := ⟨b, by simp [lastRead_append, BusEvent.readBytes], loadRx_rxHolds _ hb⟩
  histLegal := histLegal_append hs.histLegal (legal_rd_bytes hb)
  rspsLegal := hs.rspsLegal

/-- A response read and accepted: its own words and its own response are the reading's witness (R16, R124). -/
theorem accepted_inv {s : State} (hs : s.Inv) {b : List Byte} {variant : Variant} {chk : Bool} {d : Decoded}
    (hb : b.length = respLen variant) (hd : decodeResp variant chk b = d) :
    (respond .ok d.w1 d.w0
      (acceptReading d.w0 d.w1 (loadRx b (logEvent (.rd devAddr (respLen variant) (.bytes b)) s)))).Inv where
  oneError := by simp
  terrLast h := absurd h (by simp)
  cerrLast h := absurd h (by simp)
  noReading h := absurd h (by simp)
  reading _ := by
    subst hd
    exact ⟨variant, b, by simp, (decodeResp_w0_chk variant chk b).symm, (decodeResp_w1_chk variant chk b).symm, by simp⟩
  rxlenLegal := rxlenLegal_of_length hb
  rxHolds _ := ⟨b, by simp [lastRead_append, BusEvent.readBytes], loadRx_rxHolds _ hb⟩
  histLegal := histLegal_append hs.histLegal (legal_rd_bytes hb)
  rspsLegal := rspsLegal_append hs.rspsLegal .ok d.w1 d.w0

theorem Completes.inv {i : Instr} {s t : State} (h : Completes s i t) (hs : s.Inv) : t.Inv := by
  cases h with
  | wrote hv => exact respond_inv (unreadEvent_inv hs (hv.legal .ok) rfl) _ _ _
  | writeFailed hv => exact respond_inv (unreadEvent_inv hs (hv.legal .fail) rfl) _ _ _
  | readFailed hn =>
    subst hn
    exact respond_inv (unreadEvent_inv hs (legal_rd_fail _) rfl) _ _ _
  | accepted hn _ hr hd =>
    subst hn
    exact accepted_inv hs (memRead_length hr) hd
  | discarded hn _ hr hok =>
    subst hn
    exact respond_inv (discarded_inv hs (memRead_length hr) hok) _ _ _
  | configured => exact respond_inv (writeCfg_inv hs _) _ _ _
  | checksum => exact respond_inv hs _ _ _
  | register => exact respond_inv hs _ _ _
  | reserved => exact respond_inv hs _ _ _

/-- Settles O41: a reset, a wait, a performed request and a rejected one each keep the invariant. -/
theorem stepKeepsInv : Obligations.StepKeepsInv := by
  intro s t hs h
  obtain ⟨-, he⟩ | ⟨-, -, he⟩ | ⟨-, r, rest, i, -, -, he⟩ | ⟨-, r, rest, e, -, -, he⟩ := step_cases s
  case inl =>
    cases h.symm.trans he
    exact blockReset_inv hs.histLegal hs.rspsLegal
  case inr.inl =>
    cases h.symm.trans he
    exact hs
  case inr.inr.inl => exact (Completes.of_exec (he.symm.trans h)).inv (takeRequest_inv hs)
  case inr.inr.inr =>
    cases h.symm.trans he
    exact respond_inv (takeRequest_inv hs) _ _ _

/-- Settles O40: the reset state is the state after a reset with an empty history. -/
theorem invAtReset : Obligations.InvAtReset :=
  blockReset_inv (s := State.reset) (List.forall_mem_nil _) (List.forall_mem_nil _)

/-- Settles O35. -/
theorem resetRegisters : Obligations.ResetRegisters := by
  unfold Obligations.ResetRegisters
  decide

/-! ## Results of RESP, CFGWR and RDREG -/

/-- RESP on a supply that is long enough takes its first bytes (R31, D28). -/
theorem execResp_of_enough {s : State} {supply : List Byte} {rest : List BusAnswer} (x : BitVec 32)
    (ha : s.answers = .returns supply :: rest) (hn : respLen (cfgVariant s.cfg) ≤ supply.length) :
    exec (.resp x) s = .next (finishRead (supply.take (respLen (cfgVariant s.cfg)))
      (logEvent (.rd devAddr (respLen (cfgVariant s.cfg)) (.bytes (supply.take (respLen (cfgVariant s.cfg))))) s)) :=
  readResponse_of_bytes (by rw [ha, List.head?_cons]) (memRead_enough hn)

theorem finishRead_strictA {s : State} (hc : s.cfg = 0b10#2) (b : List Byte) :
    ((decodeResp .A true b).ok = true ↔
      (finishRead b s).rsps = s.rsps ++ [rspWord .ok (finishRead b s).w1 (finishRead b s).w0]) ∧
    ((decodeResp .A true b).ok = false → (finishRead b s).w0 = s.w0 ∧ (finishRead b s).w1 = s.w1) := by
  obtain ⟨hv, hk⟩ := (strictA_iff s.cfg).mpr hc
  obtain ⟨hok, hf⟩ | ⟨hok, hf⟩ := finishRead_cases b s <;> rw [hv, hk] at hok
  · simp [hf, hok]
  · simp [hf, hok]

/-- Settles O19: in strict variant A the two CRC bytes decide, under every other CFG nothing is discarded. -/
theorem validationPolicy : Obligations.ValidationPolicy := by
  intro x s supply rest ha hn
  refine ⟨_, execResp_of_enough x ha hn, fun hc => ?strictA, fun hc => ?other⟩
  case strictA =>
    have hlen : respLen (cfgVariant s.cfg) = 6 := by rw [((strictA_iff s.cfg).mpr hc).1]; rfl
    have hok : (decodeResp .A true (supply.take 6)).ok = true ↔
        crcOk (byteAt supply 0) (byteAt supply 1) (byteAt supply 2) = true ∧
          crcOk (byteAt supply 3) (byteAt supply 4) (byteAt supply 5) = true := by
      simpa [byteAt_take] using decodeResp_ok_strictA (supply.take 6)
    rw [hlen]
    obtain ⟨haccept, hkeep⟩ := finishRead_strictA
      (s := logEvent (.rd devAddr 6 (.bytes (supply.take 6))) s) hc (supply.take 6)
    refine ⟨hok.symm.trans haccept, fun hbad => hkeep (Bool.eq_false_iff.mpr fun h => ?_)⟩
    simp [hok.mp h] at hbad
  case other =>
    rw [finishRead_of_ok (s := logEvent _ s) rfl (decodeResp_ok_of_ne_strictA hc _)]
    rfl

/-- A completed read of four bytes keeps the last two bytes of RXBUF (R19). -/
theorem loadRx_four_bytes (b0 b1 b2 b3 : Byte) (s : State) : loadRx [b0, b1, b2, b3] s =
    { s with rxbuf := #v[b0, b1, b2, b3, s.rxbuf[4], s.rxbuf[5]], rxlen := 4 } := rfl

/-- Settles O21: in variant B the decoding never looks at CRCCHK, and four bytes are taken. -/
theorem variantBIgnoresCrcchk : Obligations.VariantBIgnoresCrcchk := by
  intro x s b0 b1 b2 b3 more rest hc ha
  have hB : cfgVariant s.cfg = .B := by rcases hc with hc | hc <;> rw [hc] <;> rfl
  have hlen : respLen (cfgVariant s.cfg) = 4 := by rw [hB]; rfl
  have hd : decodeResp (cfgVariant s.cfg) (cfgCrcchk s.cfg) [b0, b1, b2, b3] = ⟨b0 ++ b1, b2 ++ b3, true⟩ := by
    rw [hB]; rfl
  have hread : memRead 4 (.returns (b0 :: b1 :: b2 :: b3 :: more)) = .bytes [b0, b1, b2, b3] :=
    memRead_enough (by simp)
  rw [Completes.exec_eq (.accepted hlen.symm (by rw [ha, List.head?_cons]) hread hd rfl)]
  simp [respond, acceptReading, loadRx_four_bytes, logEvent, ha, rspWord, RspCode.st]

/-- Settles O22. -/
theorem cfgwrResult : Obligations.CfgwrResult := by
  intro v x s
  refine ⟨rfl, ?_⟩
  have hrsp : rspWord .ok 0 (v.setWidth 16) = 0x00#8 ++ 0x0000#16 ++ 0#14 ++ v := by
    rw [← zeros_append (m := 14) v]
    exact (BitVec.append_assoc (x₁ := 0x00#8 ++ 0x0000#16) (x₂ := 0#14) (x₃ := v)).symm
  rw [← hrsp]
  rfl

/-- RDREG with a register's own index answers with it (R18, R101). -/
theorem execRdreg_index (reg : Reg) (x : BitVec 28) (s : State) :
    exec (.rdreg reg.index x) s = .next (respond .ok 0 (readReg reg s) s) :=
  Completes.exec_eq (.register (regOfIndex_index reg))

/-- Settles O23: each listed pair is a register's index with its zero-extended value. -/
theorem rdregResult : Obligations.RdregResult := by
  intro x s
  refine ⟨fun r => rfl, fun p hp => ?value, fun r hr => ?reserved⟩
  case value =>
    suffices h : ∃ reg : Reg, p = (reg.index, readReg reg s) by
      obtain ⟨reg, rfl⟩ := h
      exact execRdreg_index reg x s
    simp only [List.mem_cons, List.not_mem_nil, or_false] at hp
    obtain rfl | rfl | rfl | rfl | rfl | rfl | rfl | rfl | rfl | rfl | rfl | rfl := hp
    · exact ⟨.cfg, Prod.ext rfl (zeros_append s.cfg)⟩
    · exact ⟨.status, Prod.ext rfl (zeros_append s.status)⟩
    · exact ⟨.w0, rfl⟩
    · exact ⟨.w1, rfl⟩
    · exact ⟨.addr, rfl⟩
    · exact ⟨.rxlen, Prod.ext rfl (zeros_append s.rxlen)⟩
    · exact ⟨.rxbuf 0, Prod.ext rfl (zeros_append s.rxbuf[0])⟩
    · exact ⟨.rxbuf 1, Prod.ext rfl (zeros_append s.rxbuf[1])⟩
    · exact ⟨.rxbuf 2, Prod.ext rfl (zeros_append s.rxbuf[2])⟩
    · exact ⟨.rxbuf 3, Prod.ext rfl (zeros_append s.rxbuf[3])⟩
    · exact ⟨.rxbuf 4, Prod.ext rfl (zeros_append s.rxbuf[4])⟩
    · exact ⟨.rxbuf 5, Prod.ext rfl (zeros_append s.rxbuf[5])⟩
  case reserved =>
    have hnone : regOfIndex r = none := (regOfIndex_eq_none r).mpr (by simpa using hr)
    exact Completes.exec_eq (.reserved hnone)

/-! ## What an instruction leaves unchanged -/

/-- A completed read of `n` bytes keeps RXBUF from `n` on (R19). -/
theorem loadRx_rxbuf_of_le (s : State) {b : List Byte} {k : Fin 6} (h : b.length ≤ k.val) :
    (loadRx b s).rxbuf[k] = s.rxbuf[k] := by
  simp [h]

/-- Settles O29, over the three ways a RESP completes. -/
theorem respFrame : Obligations.RespFrame := by
  intro x s t h
  cases Completes.of_exec h with
  | wrote hv => exact absurd rfl (hv.ne_resp x)
  | writeFailed hv => exact absurd rfl (hv.ne_resp x)
  | readFailed hn =>
    subst hn
    exact ⟨rfl, rfl, rfl, rfl, ⟨_, rfl⟩, fun _ _ => rfl, fun _ => ⟨rfl, rfl, by simp⟩⟩
  | accepted hn _ hr =>
    subst hn
    exact ⟨rfl, rfl, rfl, rfl, ⟨_, rfl⟩, fun k hk => loadRx_rxbuf_of_le _ ((memRead_length hr).trans_le hk),
      fun hne => absurd rfl hne⟩
  | discarded hn _ hr =>
    subst hn
    exact ⟨rfl, rfl, rfl, rfl, ⟨_, rfl⟩, fun k hk => loadRx_rxbuf_of_le _ ((memRead_length hr).trans_le hk),
      fun _ => ⟨rfl, rfl, by simp⟩⟩

/-- Settles O30, over the ways an instruction completes. -/
theorem registersWrittenOnlyBy : Obligations.RegistersWrittenOnlyBy := by
  intro i s t h
  cases Completes.of_exec h with
  | wrote hv => simp [hv.command]
  | writeFailed hv => simp [hv.command]
  | readFailed hn => simp
  | accepted hn => simp [hn]
  | discarded hn => simp [hn]
  | configured => simp
  | checksum => simp
  | register => simp
  | reserved => simp

/-- Settles O31, over the ways an instruction completes. -/
theorem statusUpdatePolicy : Obligations.StatusUpdatePolicy := by
  intro i s t h
  cases Completes.of_exec h with
  | wrote hv => simp [hv.usesBus, hv.ne_resp, BusEvent.failed]
  | writeFailed hv => simp [hv.usesBus, hv.ne_resp, BusEvent.failed]
  | readFailed => simp [usesBus, BusEvent.failed]
  | accepted => simp [usesBus, BusEvent.failed]
  | discarded => simp [usesBus, BusEvent.failed]
  | configured => simp [usesBus]
  | checksum => simp [usesBus]
  | register => simp [usesBus]
  | reserved => simp [usesBus]

/-- Settles O32: of the events an instruction can add, each is legal. -/
theorem addrConstantAndLengthsFixed : Obligations.AddrConstantAndLengthsFixed := by
  refine ⟨fun s => rfl, fun i s t h => ?_⟩
  cases Completes.of_exec h with
  | wrote hv => exact ⟨fun _ => ⟨_, rfl, hv.legal .ok⟩, by simp [hv.usesBus]⟩
  | writeFailed hv => exact ⟨fun _ => ⟨_, rfl, hv.legal .fail⟩, by simp [hv.usesBus]⟩
  | readFailed hn =>
    subst hn
    exact ⟨fun _ => ⟨_, rfl, legal_rd_fail _⟩, nofun⟩
  | accepted hn _ hr =>
    subst hn
    exact ⟨fun _ => ⟨_, rfl, legal_rd_bytes (memRead_length hr)⟩, nofun⟩
  | discarded hn _ hr =>
    subst hn
    exact ⟨fun _ => ⟨_, rfl, legal_rd_bytes (memRead_length hr)⟩, nofun⟩
  | configured => exact ⟨nofun, fun _ => rfl⟩
  | checksum => exact ⟨nofun, fun _ => rfl⟩
  | register => exact ⟨nofun, fun _ => rfl⟩
  | reserved => exact ⟨nofun, fun _ => rfl⟩

/-! ## What an instruction does not read -/

/-- No register's value depends on the history or the responses (R10, R21). -/
theorem readReg_of_records (reg : Reg) (s : State) (h : List BusEvent) (q : List (BitVec 40)) :
    readReg reg { s with hist := h, rsps := q } = readReg reg s := by
  cases reg <;> rfl

/-- What a completed instruction adds to the history and the responses, it adds to any others (R21, R24). -/
theorem Completes.of_records {i : Instr} {s t : State} (hc : Completes s i t) (h : List BusEvent)
    (q : List (BitVec 40)) :
    ∃ (es : List BusEvent) (rs : List (BitVec 40)), t.hist = s.hist ++ es ∧ t.rsps = s.rsps ++ rs ∧
      Completes { s with hist := h, rsps := q } i { t with hist := h ++ es, rsps := q ++ rs } := by
  cases hc with
  | wrote hv ha hr => exact ⟨[_], [_], rfl, rfl, .wrote hv ha hr⟩
  | writeFailed hv ha hr => exact ⟨[_], [_], rfl, rfl, .writeFailed hv ha hr⟩
  | readFailed hn ha hr => exact ⟨[_], [_], rfl, rfl, .readFailed hn ha hr⟩
  | accepted hn ha hr hd hok => exact ⟨[_], [_], rfl, rfl, .accepted hn ha hr hd hok⟩
  | discarded hn ha hr hok => exact ⟨[_], [_], rfl, rfl, .discarded hn ha hr hok⟩
  | configured => exact ⟨[], [_], (List.append_nil _).symm, rfl, by rw [List.append_nil]; exact .configured⟩
  | checksum => exact ⟨[], [_], (List.append_nil _).symm, rfl, by rw [List.append_nil]; exact .checksum⟩
  | @register r x reg hreg =>
    refine ⟨[], [_], (List.append_nil _).symm, rfl, ?_⟩
    rw [List.append_nil, ← readReg_of_records reg s h q]
    exact .register hreg
  | reserved hreg => exact ⟨[], [_], (List.append_nil _).symm, rfl, by rw [List.append_nil]; exact .reserved hreg⟩

theorem step_of_no_request {s : State} (hr : s.resetIn = false) (hq : s.reqs = []) : step s = .next s := by
  simp [step, hr, hq, waitForRequest]

theorem step_of_ok {s : State} {r : Request} {rest : List Request} {i : Instr} (hr : s.resetIn = false)
    (hq : s.reqs = r :: rest) (hd : decode r = .ok i) : step s = exec i (takeRequest s) := by
  simp [step, hr, hq, hd]

theorem step_of_error {s : State} {r : Request} {rest : List Request} {e : Reject} (hr : s.resetIn = false)
    (hq : s.reqs = r :: rest) (hd : decode r = .error e) :
    step s = .next (respond .illegalRequest 0 0 (takeRequest s)) := by
  simp [step, hr, hq, hd, rejectRequest, raiseError, recordError, Error.code]

/-- Settles O42: a step decides by the reset input and the port alone, and what it performs does not look either. -/
theorem historyIsNeverRead : Obligations.HistoryIsNeverRead := by
  intro s t h q hst
  obtain ⟨hr, he⟩ | ⟨hr, hq, he⟩ | ⟨hr, r, rest, i, hq, hd, he⟩ | ⟨hr, r, rest, e, hq, hd, he⟩ := step_cases s
  case inl =>
    cases hst.symm.trans he
    refine ⟨[], [], (List.append_nil _).symm, (List.append_nil _).symm, ?_⟩
    rw [List.append_nil, List.append_nil]
    exact step_next_of_resetIn hr
  case inr.inl =>
    cases hst.symm.trans he
    refine ⟨[], [], (List.append_nil _).symm, (List.append_nil _).symm, ?_⟩
    rw [List.append_nil, List.append_nil]
    exact step_of_no_request hr hq
  case inr.inr.inl =>
    obtain ⟨es, rs, hes, hrs, hc⟩ := (Completes.of_exec (he.symm.trans hst)).of_records h q
    exact ⟨es, rs, hes, hrs, (step_of_ok (s := { s with hist := h, rsps := q }) hr hq hd).trans hc.exec_eq⟩
  case inr.inr.inr =>
    cases hst.symm.trans he
    refine ⟨[], [_], (List.append_nil _).symm, rfl, ?_⟩
    rw [List.append_nil]
    exact step_of_error hr hq hd

/-- The state with another STATUS: what the other run starts from. -/
def State.withStatus (st : BitVec 3) (s : State) : State := { s with status := st }

/-! Each shared operation does the same whatever STATUS is. -/

section
variable (s : State) (st : BitVec 3)

theorem respond_withStatus (c : RspCode) (d1 d0 : Word) :
    respond c d1 d0 (s.withStatus st) = (respond c d1 d0 s).withStatus st := rfl

theorem logEvent_withStatus (e : BusEvent) : logEvent e (s.withStatus st) = (logEvent e s).withStatus st := rfl

theorem loadRx_withStatus (b : List Byte) : loadRx b (s.withStatus st) = (loadRx b s).withStatus st := rfl

theorem setErrors_withStatus (cerr terr : Bool) :
    setErrors cerr terr (s.withStatus st) = (setErrors cerr terr s).withStatus (statusSetErrors st cerr terr) := rfl

theorem acceptReading_withStatus (w0 w1 : Word) : acceptReading w0 w1 (s.withStatus st) =
    (acceptReading w0 w1 s).withStatus (statusSetValid (statusSetErrors st false false)) := rfl

theorem writeCfg_withStatus (v : BitVec 2) : writeCfg v (s.withStatus st) = (writeCfg v s).withStatus st := rfl

end

/-- RDREG 1 alone answers with STATUS (R15, R18). -/
theorem readReg_withStatus {r : BitVec 4} {reg : Reg} (hr : regOfIndex r = some reg) (h1 : r ≠ 1) (s : State)
    (st : BitVec 3) : readReg reg (s.withStatus st) = readReg reg s := by
  cases reg with
  | status => exact absurd hr (by revert r; decide)
  | _ => rfl

/-- With any other STATUS a bus operation leaves the same errors, and everything else is as it was (R15, R118). -/
theorem Completes.of_status {i : Instr} {s t : State} (hc : Completes s i t) (hi : ∀ x, i ≠ .rdreg 1 x)
    (st : BitVec 3) : ∃ st' : BitVec 3, Completes (s.withStatus st) i (t.withStatus st') ∧
      (usesBus i = true → statusTerr st' = statusTerr t.status ∧ statusCerr st' = statusCerr t.status) := by
  cases hc with
  | wrote hv ha hr =>
    refine ⟨statusSetErrors st false false, ?_, by simp⟩
    rw [← respond_withStatus, ← setErrors_withStatus, ← logEvent_withStatus]
    exact .wrote hv ha hr
  | writeFailed hv ha hr =>
    refine ⟨statusSetErrors st false true, ?_, by simp⟩
    rw [← respond_withStatus, ← setErrors_withStatus, ← logEvent_withStatus]
    exact .writeFailed hv ha hr
  | readFailed hn ha hr =>
    refine ⟨statusSetErrors st false true, ?_, by simp⟩
    rw [← respond_withStatus, ← setErrors_withStatus, ← logEvent_withStatus]
    exact .readFailed hn ha hr
  | accepted hn ha hr hd hok =>
    refine ⟨statusSetValid (statusSetErrors st false false), ?_, by simp⟩
    rw [← respond_withStatus, ← acceptReading_withStatus, ← loadRx_withStatus, ← logEvent_withStatus]
    exact .accepted hn ha hr hd hok
  | discarded hn ha hr hok =>
    refine ⟨statusSetErrors st true false, ?_, by simp⟩
    rw [← respond_withStatus, ← setErrors_withStatus, ← loadRx_withStatus, ← logEvent_withStatus]
    exact .discarded hn ha hr hok
  | configured =>
    refine ⟨st, ?_, nofun⟩
    rw [← respond_withStatus, ← writeCfg_withStatus]
    exact .configured
  | checksum => exact ⟨st, .checksum, nofun⟩
  | @register r x reg hreg =>
    have h1 : r ≠ 1 := fun h1 => hi x (h1 ▸ rfl)
    refine ⟨st, ?_, nofun⟩
    rw [← respond_withStatus, ← readReg_withStatus hreg h1 s st]
    exact .register hreg
  | reserved hreg => exact ⟨st, .reserved hreg, nofun⟩

/-- Settles O43: the instruction completes alike under any other STATUS. -/
theorem statusIsNeverRead : Obligations.StatusIsNeverRead := by
  intro i s t st hi h
  obtain ⟨st', hc, herr⟩ := (Completes.of_exec h).of_status hi st
  exact ⟨st', hc.exec_eq, herr⟩

end Sys2Proof.Machine

namespace Sys2Proof.Machine

open Config

/-! ## The reset input (R130, R137; log entry 4) -/

/-- The reset input does not say whether a request is in progress. -/
theorem stalled_resetIn (s : State) (b : Bool) : stalled { s with resetIn := b } = stalled s := rfl

theorem blockReset_reqs_of_not_stalled {s : State} (h : stalled s = false) : (blockReset s).reqs = s.reqs := by
  simp [blockReset_reqs, h]

theorem blockReset_reqs_of_stalled {s : State} (h : stalled s = true) : (blockReset s).reqs = s.reqs.tail := by
  simp [blockReset_reqs, h]

/-- Settles O36: the request dropped by a reset is the one at which the block would stall with reset released. -/
theorem blockResetStep : Obligations.BlockResetStep := by
  intro s hr
  have hstall : step { s with resetIn := false } = .fault .busStalled ↔ stalled s = true := by
    rw [step_eq_busStalled_iff rfl, stalled_resetIn]
  refine ⟨blockReset s, step_next_of_resetIn hr, rfl, fun h => ?_, fun h => ?_⟩
  · exact blockReset_reqs_of_not_stalled (Bool.eq_false_iff.mpr (mt hstall.mpr h))
  · exact blockReset_reqs_of_stalled (hstall.mp h)

/-- Settles O38: the block is stalled, so it has no step, and the reset drops the request it is stalled at. -/
theorem stallFreedByReset : Obligations.StallFreedByReset := by
  intro s r rest i hr hq hd hi ha
  have hs : stalled s = true := (stalled_iff s).mpr ⟨ha, r, rest, i, hq, hd, hi⟩
  refine ⟨(step_eq_busStalled_iff hr).mpr hs, ?_⟩
  rw [step_next_of_resetIn rfl, blockReset, stalled_resetIn, if_pos hs]
  simp only [hq, ha, List.tail_cons]
  rfl

/-! ## What a completed request adds and takes (R41, R57) -/

/-- A completed instruction adds one response, and one event at most (R32, R57). -/
theorem Completes.records {i : Instr} {s t : State} (hc : Completes s i t) :
    ∃ (es : List BusEvent) (w : BitVec 40), t.hist = s.hist ++ es ∧ es.length ≤ 1 ∧ t.rsps = s.rsps ++ [w] := by
  cases hc with
  | wrote => exact ⟨[_], _, rfl, le_rfl, rfl⟩
  | writeFailed => exact ⟨[_], _, rfl, le_rfl, rfl⟩
  | readFailed => exact ⟨[_], _, rfl, le_rfl, rfl⟩
  | accepted => exact ⟨[_], _, rfl, le_rfl, rfl⟩
  | discarded => exact ⟨[_], _, rfl, le_rfl, rfl⟩
  | configured => exact ⟨[], _, (List.append_nil _).symm, Nat.zero_le 1, rfl⟩
  | checksum => exact ⟨[], _, (List.append_nil _).symm, Nat.zero_le 1, rfl⟩
  | register => exact ⟨[], _, (List.append_nil _).symm, Nat.zero_le 1, rfl⟩
  | reserved => exact ⟨[], _, (List.append_nil _).symm, Nat.zero_le 1, rfl⟩

/-- A completed instruction leaves the port and the reset input alone, and uses up one answer exactly if it calls a bus
primitive (R30, R31; log entry 2). -/
theorem Completes.port {i : Instr} {s t : State} (hc : Completes s i t) :
    t.reqs = s.reqs ∧ t.resetIn = s.resetIn ∧
      t.answers = if usesBus i = true then s.answers.tail else s.answers := by
  cases hc with
  | wrote hv => simp [hv.usesBus]
  | writeFailed hv => simp [hv.usesBus]
  | readFailed => simp [usesBus]
  | accepted => simp [usesBus]
  | discarded => simp [usesBus]
  | configured => simp [usesBus]
  | checksum => simp [usesBus]
  | register => simp [usesBus]
  | reserved => simp [usesBus]

/-- Settles O33: taking the first request is all a step does besides performing it. -/
theorem stepRunsDecodedInstruction : Obligations.StepRunsDecodedInstruction := by
  intro s r rest i hr hq hd
  rw [step_of_ok hr hq hd, takeRequest, hq, List.tail_cons]

/-- Settles O39: only a performed request adds an event, and with it a response. -/
theorem historyOnlyGrows : Obligations.HistoryOnlyGrows := by
  intro s t h
  obtain ⟨-, he⟩ | ⟨-, -, he⟩ | ⟨-, r, rest, i, -, -, he⟩ | ⟨-, r, rest, e, -, -, he⟩ := step_cases s
  case inl =>
    cases h.symm.trans he
    exact ⟨[], [], by simp⟩
  case inr.inl =>
    cases h.symm.trans he
    exact ⟨[], [], by simp⟩
  case inr.inr.inl =>
    obtain ⟨es, w, hes, hlen, hw⟩ := (Completes.of_exec (he.symm.trans h)).records
    exact ⟨es, [w], hes, hw, hlen, le_rfl⟩
  case inr.inr.inr =>
    cases h.symm.trans he
    exact ⟨[], [_], (List.append_nil _).symm, rfl, Nat.zero_le 1, le_rfl⟩

/-! ## The step under TransportFailsFast (R30; log entries 1, 2, 4) -/

/-- The transport has an answer for the request in progress, so it is not stalled. -/
theorem TransportFailsFast.not_stalled {s : State} (h : TransportFailsFast s) : stalled s = false := by
  cases hq : s.reqs with
  | nil => exact stalled_of_no_request hq
  | cons r rest =>
    rw [stalled_of_request hq]
    by_contra hs
    obtain ⟨hbus, ha⟩ : requestUsesBus r = true ∧ s.answers = [] := by simpa using hs
    simp [TransportFailsFast, hq, ha, busCalls_cons, hbus] at h

theorem TransportFailsFast.exists_step {s : State} (h : TransportFailsFast s) : ∃ t, step s = .next t := by
  obtain ⟨-, hs, -⟩ | ⟨-, t, ht⟩ := step_stalls_or_next s
  · simp [h.not_stalled] at hs
  · exact ⟨t, ht⟩

/-- A step with reset released and a request at the port serves that request (R41, R57, R102). -/
theorem step_serves_first {s t : State} {r : Request} {rest : List Request} (hr : s.resetIn = false)
    (hq : s.reqs = r :: rest) (h : step s = .next t) :
    t.reqs = rest ∧ t.resetIn = false ∧ (∃ w, t.rsps = s.rsps ++ [w]) ∧
      t.answers = if requestUsesBus r = true then s.answers.tail else s.answers := by
  cases hd : decode r with
  | ok i =>
    have hc : Completes (takeRequest s) i t := .of_exec ((step_of_ok hr hq hd).symm.trans h)
    obtain ⟨hreqs, hreset, hanswers⟩ := hc.port
    obtain ⟨-, w, -, -, hw⟩ := hc.records
    rw [requestUsesBus_of_ok hd]
    exact ⟨by simp [hreqs, hq], hreset.trans hr, ⟨w, hw⟩, hanswers⟩
  | error e =>
    cases h.symm.trans (step_of_error hr hq hd)
    rw [requestUsesBus_of_error hd]
    exact ⟨by simp [hq], hr, ⟨_, rfl⟩, rfl⟩

/-- One request and, if it calls a bus primitive, one answer less keep the premise. -/
theorem TransportFailsFast.after_served {s t : State} {r : Request} {rest : List Request} (h : TransportFailsFast s)
    (hq : s.reqs = r :: rest) (hreqs : t.reqs = rest)
    (hanswers : t.answers = if requestUsesBus r = true then s.answers.tail else s.answers) :
    TransportFailsFast t := by
  rw [TransportFailsFast, hq, busCalls_cons] at h
  rw [TransportFailsFast, hreqs, hanswers]
  split at h
  next hbus =>
    rw [if_pos hbus, List.length_tail]
    omega
  next hbus =>
    rw [if_neg hbus]
    omega

/-- A reset keeps the premise: no request is in progress without an answer, so none is dropped (R130). -/
theorem TransportFailsFast.after_reset {s : State} (h : TransportFailsFast s) : TransportFailsFast (blockReset s) := by
  rwa [TransportFailsFast, blockReset_reqs_of_not_stalled h.not_stalled]

theorem TransportFailsFast.after_step {s t : State} (h : TransportFailsFast s) (hst : step s = .next t) :
    TransportFailsFast t ∧ t.resetIn = false := by
  cases hr : s.resetIn with
  | true =>
    cases hst.symm.trans (step_next_of_resetIn hr)
    exact ⟨h.after_reset, rfl⟩
  | false =>
    cases hq : s.reqs with
    | nil =>
      cases hst.symm.trans (step_of_no_request hr hq)
      exact ⟨h, hr⟩
    | cons r rest =>
      obtain ⟨hreqs, hreset, -, hanswers⟩ := step_serves_first hr hq hst
      exact ⟨h.after_served hq hreqs hanswers, hreset⟩

/-- Settles O48: a step exists, keeps the premise, and serves the first request. -/
theorem eachStepServesARequest : Obligations.EachStepServesARequest := by
  intro s h
  obtain ⟨t, hst⟩ := h.exists_step
  obtain ⟨hkeep, hreset⟩ := h.after_step hst
  refine ⟨t, hst, hkeep, hreset, fun r rest hr hq => ?_⟩
  obtain ⟨hreqs, -, hw, hanswers⟩ := step_serves_first hr hq hst
  exact ⟨hreqs, hw, hanswers⟩

/-- With reset released, as many steps as there are requests serve them all. -/
theorem TransportFailsFast.run_serves_all (rs : List Request) {s : State} (h : TransportFailsFast s)
    (hr : s.resetIn = false) (hq : s.reqs = rs) :
    ∃ t : State, Sys2Proof.core.run rs.length s = .next t ∧ t.reqs = [] ∧
      t.rsps.length = s.rsps.length + rs.length := by
  induction rs generalizing s with
  | nil => exact ⟨s, rfl, hq, rfl⟩
  | cons r rest ih =>
    obtain ⟨t, hst⟩ := h.exists_step
    obtain ⟨hkeep, hreset⟩ := h.after_step hst
    obtain ⟨hreqs, -, ⟨w, hw⟩, -⟩ := step_serves_first hr hq hst
    obtain ⟨u, hrun, hport, hlen⟩ := ih hkeep hreset hreqs
    refine ⟨u, (run_succ_of_next rest.length hst).trans hrun, hport, ?_⟩
    simp only [hlen, hw, List.length_append, List.length_cons, List.length_nil]
    omega

/-- Settles O44: by induction on the requests, after the reset's one step where it is asserted. -/
theorem everyRequestIsServed : Obligations.EveryRequestIsServed := by
  intro s h
  cases hr : s.resetIn with
  | false => simpa using h.run_serves_all s.reqs hr rfl
  | true =>
    obtain ⟨t, hrun, hport, hlen⟩ :=
      h.after_reset.run_serves_all s.reqs rfl (blockReset_reqs_of_not_stalled h.not_stalled)
    exact ⟨t, (run_succ_of_next s.reqs.length (step_next_of_resetIn hr)).trans hrun, hport, hlen⟩

/-! ## The results of RESP (R31, R86, R112) -/

/-- A read of the first `n` bytes of a long enough supply loads RXBUF below `n` and sets RXLEN to `n` (R19, R31). -/
theorem loadRx_take (s : State) {supply : List Byte} {n : Nat} (hn : n ≤ supply.length) :
    loadRx (supply.take n) s = { s with
      rxbuf := Vector.ofFn fun i => if i.val < n then byteAt supply i.val else s.rxbuf[i]
      rxlen := BitVec.ofNat 3 n } := by
  have hbyte : ∀ i : Fin 6, (supply.take n).getD i.val s.rxbuf[i] =
      if i.val < n then byteAt supply i.val else s.rxbuf[i] := by
    intro i
    by_cases hi : i.val < n
    · simp [byteAt, hi, hi.trans_le hn]
    · simp [hi]
  rw [loadRx, funext hbyte, List.length_take, Nat.min_eq_left hn]

/-- Settles O18: each outcome of the read is one way in which RESP completes, or its stall. -/
theorem respResult : Obligations.RespResult := by
  intro x s n hlen
  refine ⟨rfl, fun a rest ha hfail => ?failed, fun supply rest ha hn hok => ?accepted,
    fun supply rest ha hn hok => ?discarded, fun ha => ?stalled⟩
  case failed =>
    have hread : memRead n a = .fail := by
      obtain rfl | ⟨supply, rfl, hshort⟩ := hfail
      · rfl
      · exact memRead_short hshort
    rw [Completes.exec_eq (.readFailed hlen (by rw [ha, List.head?_cons]) hread)]
    simp [respond, setErrors, logEvent, ha, rspWord, RspCode.st]
  case accepted =>
    rw [Completes.exec_eq (.accepted hlen (by rw [ha, List.head?_cons]) (memRead_enough hn) rfl hok)]
    simp [respond, acceptReading, loadRx_take _ hn, logEvent, ha, rspWord, RspCode.st]
  case discarded =>
    rw [Completes.exec_eq (.discarded hlen (by rw [ha, List.head?_cons]) (memRead_enough hn) hok)]
    simp [respond, setErrors, loadRx_take _ hn, logEvent, ha, rspWord, RspCode.st]
  case stalled =>
    obtain ⟨-, -, h⟩ | ⟨hfree, -⟩ := exec_stalls_or_next (.resp x) s
    · exact h
    · simp [usesBus, ha] at hfree

/-- A completed read of six bytes fills RXBUF (R19). -/
theorem loadRx_six_bytes (b0 b1 b2 b3 b4 b5 : Byte) (s : State) : loadRx [b0, b1, b2, b3, b4, b5] s =
    { s with rxbuf := #v[b0, b1, b2, b3, b4, b5], rxlen := 6 } := rfl

/-- Strict variant A discards six bytes when the third or the sixth is not the checksum of the two before it (R75, R87). -/
theorem decodeResp_strictA_six_bytes (b0 b1 b2 b3 b4 b5 : Byte) :
    (decodeResp .A true [b0, b1, b2, b3, b4, b5]).ok = false ↔ b2 ≠ crc8 b0 b1 ∨ b5 ≠ crc8 b3 b4 := by
  rw [Bool.eq_false_iff, ne_eq, decodeResp_ok_strictA, not_and_or, ne_comm (a := b2), ne_comm (a := b5)]
  simp [byteAt, crcOk]

/-- A response is discarded only in strict variant A, where it has six bytes (R84, R87). -/
theorem six_bytes_of_discarded {cfg : BitVec 2} {b : List Byte} (hb : b.length = respLen (cfgVariant cfg))
    (hok : (decodeResp (cfgVariant cfg) (cfgCrcchk cfg) b).ok = false) :
    cfg = 0b10#2 ∧ ∃ b0 b1 b2 b3 b4 b5 : Byte, b = [b0, b1, b2, b3, b4, b5] ∧
      (b2 ≠ crc8 b0 b1 ∨ b5 ≠ crc8 b3 b4) := by
  have hcfg : cfg = 0b10#2 := by
    by_contra hne
    simp [decodeResp_ok_of_ne_strictA hne] at hok
  obtain ⟨hv, hk⟩ := (strictA_iff cfg).mpr hcfg
  rw [hv] at hb
  rw [hv, hk] at hok
  match b, hb with
  | [b0, b1, b2, b3, b4, b5], _ =>
    exact ⟨hcfg, b0, b1, b2, b3, b4, b5, rfl, (decodeResp_strictA_six_bytes b0 b1 b2 b3 b4 b5).mp hok⟩

/-- Settles O20: the mismatch is the way in which RESP discards a response, and no other completion answers with its code. -/
theorem checksumMismatchEffect : Obligations.ChecksumMismatchEffect := by
  constructor
  case left =>
    intro x s b0 b1 b2 b3 b4 b5 more rest hcfg ha hbad
    obtain ⟨hv, hk⟩ := (strictA_iff s.cfg).mpr hcfg
    have hlen : respLen (cfgVariant s.cfg) = 6 := by rw [hv]; rfl
    have hok : (decodeResp (cfgVariant s.cfg) (cfgCrcchk s.cfg) [b0, b1, b2, b3, b4, b5]).ok = false := by
      rw [hv, hk]
      exact (decodeResp_strictA_six_bytes b0 b1 b2 b3 b4 b5).mpr hbad
    have hread : memRead 6 (.returns (b0 :: b1 :: b2 :: b3 :: b4 :: b5 :: more)) =
        .bytes [b0, b1, b2, b3, b4, b5] := memRead_enough (by simp)
    rw [Completes.exec_eq (.discarded hlen.symm (by rw [ha, List.head?_cons]) hread hok)]
    simp [respond, setErrors, loadRx_six_bytes, logEvent, ha, rspWord, RspCode.st]
  case right =>
    intro i s t d1 d0 h hrsps
    cases Completes.of_exec h with
    | @discarded x n a b hn _ hr hok =>
      subst hn
      obtain ⟨hcfg, b0, b1, b2, b3, b4, b5, rfl, hbad⟩ := six_bytes_of_discarded (memRead_length hr) hok
      refine ⟨⟨x, rfl⟩, hcfg, b0, b1, b2, b3, b4, b5, ?_, hbad⟩
      have hlen : respLen (cfgVariant s.cfg) = 6 := (memRead_length hr).symm
      simp [hlen]
    | wrote => simp at hrsps
    | writeFailed => simp at hrsps
    | readFailed => simp at hrsps
    | accepted => simp at hrsps
    | configured => simp at hrsps
    | checksum => simp at hrsps
    | register => simp at hrsps
    | reserved => simp at hrsps

/-! ## The host's measurements (R44, R134, R141; log entry 15) -/

/-- The command and its conversion time, of the two measurements a RESP can follow (R134). -/
def IsMeasurement (d : HostDelays) (c : Option (Word × Bool)) (need : Nat) : Prop :=
  (c = some (0x2008, false) ∧ need = d.tMeasMs) ∨ (c = some (0x2050, false) ∧ need = d.tRawMs)

/-- The trace ends with a successful measurement, no bus request after it, and all but `owed` of its conversion time
waited. -/
def MeasurementPending (d : HostDelays) (tr : List HostAction) (owed : Nat) : Prop :=
  ∃ (early between : List HostAction) (m : Request) (i : Instr) (need : Nat),
    tr = early ++ [.request m .ok] ++ between ∧ decode m = .ok i ∧ IsMeasurement d (busCommand i) need ∧
      (∀ a ∈ between, a.usesBus = false) ∧ need ≤ hostPauses between + owed

/-- A request that calls no bus primitive, a directive or a pause leaves the measurement pending, its pause waited. -/
theorem MeasurementPending.append {d : HostDelays} {tr : List HostAction} {owed owed' : Nat} {a : HostAction}
    (h : MeasurementPending d tr owed) (ha : a.usesBus = false) (howed : owed ≤ hostPauses [a] + owed') :
    MeasurementPending d (tr ++ [a]) owed' := by
  obtain ⟨early, between, m, i, need, rfl, hm, hi, hfree, hneed⟩ := h
  refine ⟨early, between ++ [a], m, i, need, by simp, hm, hi, ?_, ?_⟩
  · simpa only [List.forall_mem_append, List.forall_mem_singleton] using ⟨hfree, ha⟩
  · rw [hostPauses_append]
    omega

/-- Everything an obedient instruction can be: one off the bus, a RESP that is due, or a permitted command. -/
theorem hostInstr_cases {d : HostDelays} {t t' : HostTrack} {st : RspCode} {i : Instr}
    (h : hostInstr d t st i = some t') :
    (usesBus i = false ∧ t'.reading = t.reading ∧ t'.owed = t.owed) ∨
    ((∃ x, i = .resp x) ∧ t.reading = true ∧ t.owed = 0 ∧ t'.reading = false) ∨
    (∃ c, busCommand i = some c ∧ hostMayCommand t c = true ∧ t' = hostAfterCommand d t c st) := by
  cases hc : busCommand i with
  | some c =>
    rw [hostInstr_of_busCommand hc, hostCommand] at h
    split at h
    next hmay => exact .inr (.inr ⟨c, rfl, hmay, (Option.some.inj h).symm⟩)
    next => cases h
  | none =>
    cases i with
    | crc8 b0 b1 x => cases h; exact .inl ⟨rfl, rfl, rfl⟩
    | rdreg r x => cases h; exact .inl ⟨rfl, rfl, rfl⟩
    | cfgwr v x =>
      rw [hostInstr] at h
      split at h
      next => cases h
      next => cases h; exact .inl ⟨rfl, rfl, rfl⟩
    | resp x =>
      rw [hostInstr] at h
      split at h
      next hdue =>
        cases h
        obtain ⟨hreading, howed⟩ : t.reading = true ∧ t.owed = 0 := by simpa using hdue
        exact .inr (.inl ⟨⟨x, rfl⟩, hreading, howed, rfl⟩)
      next => cases h
    | _ => cases hc

/-- Any command but a successful measurement leaves it as it was whether a reading is pending (R141). -/
theorem hostAfterCommand_reading_of_not_measurement {c : Word × Bool} {st : RspCode}
    (h : st = .ok → c ≠ (0x2008, false) ∧ c ≠ (0x2050, false)) (d : HostDelays) (t : HostTrack) :
    (hostAfterCommand d t c st).reading = t.reading := by
  by_cases hst : st = .ok
  · obtain ⟨hIaq, hRaw⟩ := h hst
    simp only [hostAfterCommand, if_neg hIaq, if_neg hRaw, apply_ite HostTrack.reading, ite_self]
  · simp only [hostAfterCommand, if_neg hst, apply_ite HostTrack.reading, ite_self]

/-- Only a successful measurement makes a reading pending, and then its conversion time is owed (R134, R141). -/
theorem measurement_of_reading {d : HostDelays} {t : HostTrack} {c : Word × Bool} {st : RspCode}
    (ht : t.reading = false) (h : (hostAfterCommand d t c st).reading = true) :
    st = .ok ∧ IsMeasurement d (some c) (hostAfterCommand d t c st).owed := by
  by_cases hm : st = .ok ∧ (c = (0x2008, false) ∨ c = (0x2050, false))
  case pos =>
    obtain ⟨rfl, rfl | rfl⟩ := hm
    · exact ⟨rfl, .inl ⟨rfl, rfl⟩⟩
    · exact ⟨rfl, .inr ⟨rfl, rfl⟩⟩
  case neg =>
    rw [hostAfterCommand_reading_of_not_measurement (by simpa using hm), ht] at h
    cases h

theorem reading_of_hostMayCommand {t : HostTrack} {c : Word × Bool} (h : hostMayCommand t c = true) :
    t.reading = false := by
  simp only [hostMayCommand, Bool.and_eq_true, Bool.not_eq_true'] at h
  obtain ⟨⟨hreading, -⟩, -⟩ := h
  exact hreading

/-- An obedient action keeps it so that where a reading is pending, the trace says of which measurement. -/
theorem measurementPending_of_hostAct {d : HostDelays} {tr : List HostAction} {t t' : HostTrack} {a : HostAction}
    (htr : t.reading = true → MeasurementPending d tr t.owed) (h : hostAct d t a = some t') (ht' : t'.reading = true) :
    MeasurementPending d (tr ++ [a]) t'.owed := by
  cases a with
  | pause ms =>
    cases h
    refine (htr ht').append rfl ?_
    simp only [hostPauses]
    omega
  | meansNewLayout =>
    cases h
    exact (htr ht').append rfl (Nat.le_add_left _ _)
  | request r st =>
    rw [hostAct] at h
    cases hd : decode r with
    | error e =>
      rw [hd] at h
      cases h
      exact (htr ht').append (requestUsesBus_of_error hd) (Nat.le_add_left _ _)
    | ok i =>
      rw [hd] at h
      obtain ⟨hfree, hreading, howed⟩ | ⟨-, -, -, hreading⟩ | ⟨c, hc, hmay, rfl⟩ := hostInstr_cases h
      case inl =>
        rw [howed]
        exact (htr (hreading ▸ ht')).append ((requestUsesBus_of_ok hd).trans hfree) (Nat.le_add_left _ _)
      case inr.inl =>
        rw [hreading] at ht'
        cases ht'
      case inr.inr =>
        obtain ⟨rfl, hmeas⟩ := measurement_of_reading (reading_of_hostMayCommand hmay) ht'
        exact ⟨tr, [], r, i, _, by simp, hd, by rwa [hc], by simp, Nat.le_add_left _ _⟩

/-- The last action of an obedient trace is obedient after the rest of it. -/
theorem hostTrace_append_singleton {d : HostDelays} {t t' : HostTrack} {tr : List HostAction} {a : HostAction}
    (h : hostTrace d t (tr ++ [a]) = some t') : ∃ u, hostTrace d t tr = some u ∧ hostAct d u a = some t' := by
  rw [hostTrace_append, Option.bind_eq_some_iff] at h
  obtain ⟨u, hu, h⟩ := h
  refine ⟨u, hu, ?_⟩
  rw [hostTrace] at h
  split at h
  next v hv =>
    cases h
    exact hv
  next => cases h

/-- Where a reading is pending after an obedient trace, the trace says of which measurement. -/
theorem measurementPending_of_hostTrace {d : HostDelays} (tr : List HostAction) {t : HostTrack}
    (h : hostTrace d .start tr = some t) (ht : t.reading = true) : MeasurementPending d tr t.owed := by
  induction tr using List.reverseRecOn generalizing t with
  | nil =>
    cases h
    cases ht
  | append_singleton tr a ih =>
    obtain ⟨u, hu, ha⟩ := hostTrace_append_singleton h
    exact measurementPending_of_hostAct (ih hu) ha ht

/-- Settles O45: a RESP is permitted only while a reading is pending and none of its conversion time is owed. -/
theorem obedientHostWaitsBeforeResp : Obligations.ObedientHostWaitsBeforeResp := by
  intro d before after r st x h hd
  obtain ⟨w, hw⟩ := Option.isSome_iff_exists.mp h
  rw [hostTrace_append, Option.bind_eq_some_iff] at hw
  obtain ⟨v, hv, -⟩ := hw
  obtain ⟨t, ht, ha⟩ := hostTrace_append_singleton hv
  rw [hostAct, hd] at ha
  obtain ⟨hfree, -, -⟩ | ⟨-, hreading, howed, -⟩ | ⟨c, hc, -, -⟩ := hostInstr_cases ha
  case inl => cases hfree
  case inr.inl =>
    have hpending := measurementPending_of_hostTrace before ht hreading
    rwa [howed] at hpending
  case inr.inr => cases hc

end Sys2Proof.Machine

namespace Sys2Proof

/-! ## Three fields in a row -/

/-- The two lower fields are read back where they were put. -/
theorem fields_append {k m n : Nat} (x : BitVec k) (y : BitVec m) (z : BitVec n) :
    (x ++ y ++ z).extractLsb' n m = y ∧ (x ++ y ++ z).extractLsb' 0 n = z := by
  refine ⟨?_, BitVec.extractLsb'_append_eq_right⟩
  rw [BitVec.extractLsb'_append_eq_of_le le_rfl, Nat.sub_self]
  exact BitVec.extractLsb'_append_eq_right

/-- Three adjacent fields are the whole of their word. -/
theorem append_fields {k m n : Nat} (w : BitVec (k + m + n)) :
    w.extractLsb' (n + m) k ++ w.extractLsb' n m ++ w.extractLsb' 0 n = w := by
  rw [BitVec.extractLsb'_append_extractLsb'_eq_extractLsb' rfl]
  exact BitVec.extractLsb'_append_extractLsb'

/-! ## The decoder, row by row of R58's table -/

section

variable {w : BitVec 40}

theorem decode_of_op_crc8 (h : reqOp w = 0x01) :
    decode (.req w) = .ok (.crc8 (w.extractLsb' 24 8) (w.extractLsb' 16 8) (reqB w)) := by simp [decode, decodeReq, h]

theorem decode_of_op_cmd (h : reqOp w = 0x02) : decode (.req w) = .ok (decodeCmd (reqA w) (reqB w)) := by
  simp [decode, decodeReq, h]

theorem decode_of_op_cmdw (h : reqOp w = 0x03) : decode (.req w) = .ok (decodeCmdw (reqA w) (reqB w)) := by
  simp [decode, decodeReq, h]

theorem decode_of_op_resp (h : reqOp w = 0x04) : decode (.req w) = .ok (.resp (w.extractLsb' 0 32)) := by
  simp [decode, decodeReq, h]

theorem decode_of_op_cfgwr (h : reqOp w = 0x05) :
    decode (.req w) = .ok (.cfgwr (w.extractLsb' 0 2) (w.extractLsb' 2 30)) := by simp [decode, decodeReq, h]

theorem decode_of_op_rdreg (h : reqOp w = 0x06) :
    decode (.req w) = .ok (.rdreg (w.extractLsb' 0 4) (w.extractLsb' 4 28)) := by simp [decode, decodeReq, h]

theorem decode_of_op_undefined (h : (reqOp w).toNat = 0 ∨ 7 ≤ (reqOp w).toNat) :
    decode (.req w) = .error (.undefinedOp (reqOp w)) := by
  have hne : ∀ op : BitVec 8, 0 < op.toNat ∧ op.toNat < 7 → reqOp w ≠ op := by
    rintro op hop rfl
    omega
  simp [decode, decodeReq, hne]

end

/-- Every `OP` is one of the six defined ones or undefined (R58, R60). -/
theorem op_cases (op : BitVec 8) :
    op = 0x01 ∨ op = 0x02 ∨ op = 0x03 ∨ op = 0x04 ∨ op = 0x05 ∨ op = 0x06 ∨ (op.toNat = 0 ∨ 7 ≤ op.toNat) := by
  bv_omega

/-! ## The rows of the pseudo-instructions (R63; log entry 6) -/

theorem cmd_wf_iff (c : Word) (x : BitVec 16) :
    (Instr.cmd c x).wf = true ↔ c ≠ 0x2003 ∧ c ≠ 0x2008 ∧ c ≠ 0x2050 ∧ c ≠ 0x201E := by
  simp [Instr.wf, Instr.cmdAliases]

theorem cmdw_wf_iff (c d : Word) : (Instr.cmdw c d).wf = true ↔ c ≠ 0x2061 := by
  simp [Instr.wf, Instr.cmdwAliases]

theorem decodeCmd_of_wf {c : Word} {x : BitVec 16} (h : (Instr.cmd c x).wf = true) : decodeCmd c x = .cmd c x := by
  obtain ⟨h2003, h2008, h2050, h201E⟩ := (cmd_wf_iff c x).mp h
  rw [decodeCmd, if_neg h2003, if_neg h2008, if_neg h2050, if_neg h201E]

theorem decodeCmdw_of_wf {c d : Word} (h : (Instr.cmdw c d).wf = true) : decodeCmdw c d = .cmdw c d := by
  rw [decodeCmdw, if_neg ((cmdw_wf_iff c d).mp h)]

/-- Whichever row the word is read as, it has the same encoding. -/
theorem encode_decodeCmd (a b : Word) :
    encode (decodeCmd a b) = .req (reqWord 0x02 a b) ∧ (decodeCmd a b).wf = true := by
  unfold decodeCmd
  split_ifs with h2003 h2008 h2050 h201E
  · exact ⟨by rw [h2003]; rfl, rfl⟩
  · exact ⟨by rw [h2008]; rfl, rfl⟩
  · exact ⟨by rw [h2050]; rfl, rfl⟩
  · exact ⟨by rw [h201E]; rfl, rfl⟩
  · exact ⟨rfl, (cmd_wf_iff a b).mpr ⟨h2003, h2008, h2050, h201E⟩⟩

theorem encode_decodeCmdw (a b : Word) :
    encode (decodeCmdw a b) = .req (reqWord 0x03 a b) ∧ (decodeCmdw a b).wf = true := by
  unfold decodeCmdw
  split_ifs with h2061
  · exact ⟨by rw [h2061]; rfl, rfl⟩
  · exact ⟨rfl, (cmdw_wf_iff a b).mpr h2061⟩

/-! ## Decoding an encoding -/

theorem decode_reqWord_cmd (a b : Word) : decode (.req (reqWord 0x02 a b)) = .ok (decodeCmd a b) := by
  simp [decode_of_op_cmd]

theorem decode_reqWord_cmdw (a b : Word) : decode (.req (reqWord 0x03 a b)) = .ok (decodeCmdw a b) := by
  simp [decode_of_op_cmdw]

theorem decode_reqWord_crc8 (b0 b1 : Byte) (x : BitVec 16) :
    decode (.req (reqWord 0x01 (b0 ++ b1) x)) = .ok (.crc8 b0 b1 x) := by
  have hA (start : Nat) (h : start + 8 ≤ 16) :
      (reqWord 0x01 (b0 ++ b1) x).extractLsb' (start + 16) 8 = (b0 ++ b1).extractLsb' start 8 := by
    rw [reqWord, BitVec.extractLsb'_append_eq_of_le (Nat.le_add_left 16 start), Nat.add_sub_cancel,
      BitVec.extractLsb'_append_eq_of_add_le h]
  have h0 := (hA 8 (by decide)).trans BitVec.extractLsb'_append_eq_left
  have h1 := (hA 0 (by decide)).trans BitVec.extractLsb'_append_eq_right
  rw [decode_of_op_crc8 (reqOp_reqWord _ _ _), h0, h1, reqB_reqWord]

theorem decode_resp (x : BitVec 32) : decode (.req (0x04#8 ++ x)) = .ok (.resp x) := by
  rw [decode_of_op_resp (Laws.EncodeFormat.resp x)]
  exact congrArg (fun y => Except.ok (Instr.resp y)) BitVec.extractLsb'_append_eq_right

theorem decode_cfgwr (v : BitVec 2) (x : BitVec 30) : decode (.req (0x05#8 ++ x ++ v)) = .ok (.cfgwr v x) := by
  obtain ⟨hx, hv⟩ := fields_append 0x05#8 x v
  rw [decode_of_op_cfgwr (Laws.EncodeFormat.cfgwr v x)]
  exact congrArg₂ (fun y z => Except.ok (Instr.cfgwr y z)) hv hx

theorem decode_rdreg (r : BitVec 4) (x : BitVec 28) : decode (.req (0x06#8 ++ x ++ r)) = .ok (.rdreg r x) := by
  obtain ⟨hx, hr⟩ := fields_append 0x06#8 x r
  rw [decode_of_op_rdreg (Laws.EncodeFormat.rdreg r x)]
  exact congrArg₂ (fun y z => Except.ok (Instr.rdreg y z)) hr hx

/-- Settles O1: each row's word is read by its `OP`, and a row of R63's table by its command word too. -/
theorem decodeOfEncodeIsInstr : Obligations.DecodeOfEncodeIsInstr := by
  intro i h
  cases i with
  | crc8 b0 b1 x => exact decode_reqWord_crc8 b0 b1 x
  | cmd c x => exact (decode_reqWord_cmd c x).trans (congrArg _ (decodeCmd_of_wf h))
  | cmdw c d => exact (decode_reqWord_cmdw c d).trans (congrArg _ (decodeCmdw_of_wf h))
  | resp x => exact decode_resp x
  | cfgwr v x => exact decode_cfgwr v x
  | rdreg r x => exact decode_rdreg r x
  | iaqInit x => exact decode_reqWord_cmd 0x2003 x
  | measIaq x => exact decode_reqWord_cmd 0x2008 x
  | measRaw x => exact decode_reqWord_cmd 0x2050 x
  | setAh d => exact decode_reqWord_cmdw 0x2061 d
  | setBaseline x => exact decode_reqWord_cmd 0x201E x
  | wireIaqInit => rfl
  | wireMeasIaq => rfl
  | wireMeasRaw => rfl
  | wireSetAh d => rfl
  | wireSetBaseline => rfl

/-! ## Encoding what was decoded -/

/-- Settles O2: the fields of a word with a defined `OP`, put together again in its row's order, are the word. -/
theorem encodeOfDecodedRequestWord : Obligations.EncodeOfDecodedRequestWord := by
  intro w i hd
  obtain h | h | h | h | h | h | h := op_cases (reqOp w)
  case inl =>
    cases hd.symm.trans (decode_of_op_crc8 h)
    have hA : (w.extractLsb' 24 8 ++ w.extractLsb' 16 8 : Word) = reqA w :=
      BitVec.extractLsb'_append_extractLsb'_eq_extractLsb' rfl
    refine ⟨?_, rfl⟩
    rw [encode, hA, ← h, reqWord_fields]
  case inr.inl =>
    cases hd.symm.trans (decode_of_op_cmd h)
    simpa [← h, reqWord_fields] using encode_decodeCmd (reqA w) (reqB w)
  case inr.inr.inl =>
    cases hd.symm.trans (decode_of_op_cmdw h)
    simpa [← h, reqWord_fields] using encode_decodeCmdw (reqA w) (reqB w)
  case inr.inr.inr.inl =>
    cases hd.symm.trans (decode_of_op_resp h)
    refine ⟨?_, rfl⟩
    rw [encode, ← show reqOp w = 0x04#8 from h]
    exact congrArg Request.req (BitVec.extractLsb'_append_extractLsb' (w := 8) (len := 32))
  case inr.inr.inr.inr.inl =>
    cases hd.symm.trans (decode_of_op_cfgwr h)
    refine ⟨?_, rfl⟩
    rw [encode, ← show reqOp w = 0x05#8 from h]
    exact congrArg Request.req (append_fields (k := 8) (m := 30) (n := 2) w)
  case inr.inr.inr.inr.inr.inl =>
    cases hd.symm.trans (decode_of_op_rdreg h)
    refine ⟨?_, rfl⟩
    rw [encode, ← show reqOp w = 0x06#8 from h]
    exact congrArg Request.req (append_fields (k := 8) (m := 28) (n := 4) w)
  case inr.inr.inr.inr.inr.inr => cases hd.symm.trans (decode_of_op_undefined h)

/-- Settles O3: a defined `OP` decodes, an undefined one is rejected as what it is. -/
theorem exactlyUndefinedOpRejected : Obligations.ExactlyUndefinedOpRejected := by
  intro w op
  rw [← reqOp_toNat, BitVec.toNat_inj]
  constructor
  case mp =>
    intro hd
    obtain h | h | h | h | h | h | h := op_cases (reqOp w)
    · cases hd.symm.trans (decode_of_op_crc8 h)
    · cases hd.symm.trans (decode_of_op_cmd h)
    · cases hd.symm.trans (decode_of_op_cmdw h)
    · cases hd.symm.trans (decode_of_op_resp h)
    · cases hd.symm.trans (decode_of_op_cfgwr h)
    · cases hd.symm.trans (decode_of_op_rdreg h)
    · cases hd.symm.trans (decode_of_op_undefined h)
      exact ⟨rfl, h⟩
  case mpr =>
    rintro ⟨rfl, h⟩
    exact decode_of_op_undefined h

end Sys2Proof

namespace Sys2Proof.Machine

open Config

/-! ## The assembler's words (R62, R63) -/

/-- Settles O4: each word is the encoding of the instruction it is said to stand for. -/
theorem specWordsDecode : Obligations.SpecWordsDecode :=
  ⟨decodeOfEncodeIsInstr (.crc8 0xBE 0xEF 0) rfl, decodeOfEncodeIsInstr (.cmd 0xBEEF 0) rfl,
    decodeOfEncodeIsInstr (.cmdw 0x1234 0x0190) rfl, decodeOfEncodeIsInstr (.resp 0xDEADBEEF) rfl,
    decodeOfEncodeIsInstr (.cfgwr 2 0) rfl, decodeOfEncodeIsInstr (.rdreg 10 0) rfl,
    decodeOfEncodeIsInstr (.iaqInit 0) rfl, decodeOfEncodeIsInstr (.measIaq 0) rfl,
    decodeOfEncodeIsInstr (.measRaw 0) rfl, decodeOfEncodeIsInstr (.setAh 0x0B7C) rfl,
    decodeOfEncodeIsInstr (.setBaseline 0) rfl, decodeOfEncodeIsInstr .wireIaqInit rfl,
    decodeOfEncodeIsInstr (.wireSetAh 0x0B7C) rfl⟩

/-- Settles O5: a pseudo-instruction's meaning is the operation its expansion calls, on the same operands. -/
theorem pseudoInstructionsExpand : Obligations.PseudoInstructionsExpand :=
  ⟨⟨rfl, rfl, rfl, rfl, fun _ => rfl⟩, fun _ _ _ => ⟨rfl, rfl, rfl, rfl, rfl⟩⟩

theorem exec_assembled (i : Instr) (s : State) : exec i.assembled s = exec i s := by
  cases i <;> rfl

/-- Settles O6: no meaning reads the ignored bits; the words differ from the encoder's in how their zeros are grouped. -/
theorem ignoredOperandBitsChangeNothing : Obligations.IgnoredOperandBitsChangeNothing := by
  refine ⟨fun i s => ⟨(exec_assembled i s).symm, rfl⟩, fun b0 b1 x => ?crc8, fun _ _ => rfl, fun _ _ => rfl,
    fun _ => rfl, fun v _ => ?cfgwr, fun r _ => ?rdreg, fun _ => ⟨rfl, rfl, rfl, rfl⟩, fun _ => rfl⟩
  case crc8 =>
    exact congrArg (fun y : BitVec 24 => Request.req (y ++ 0x0000#16)) (BitVec.append_assoc' (x₁ := 0x01#8))
  case cfgwr => exact congrArg Request.req (BitVec.append_assoc (x₁ := 0x05#8 ++ 0#16) (x₂ := 0#14) (x₃ := v))
  case rdreg => exact congrArg Request.req (BitVec.append_assoc (x₁ := 0x06#8 ++ 0#16) (x₂ := 0#12) (x₃ := r))

/-! ## The device commands (R54, R80, R81) -/

theorem writes_frameCmd {i : Instr} {c : Word} (h : busCommand i = some (c, false)) : Writes i (frameCmd c) := by
  refine ⟨by simp [h], .inl (frameCmd_length c), fun s => ?_⟩
  cases i <;> cases h <;> rfl

/-- The exact next state of an instruction that writes the frame `v`, on each answer of the transport (R82, R83). -/
theorem Writes.results {i : Instr} {v : List Byte} (h : Writes i v) (s : State) :
    (∀ supply rest, s.answers = .returns supply :: rest → exec i s = .next { s with
      hist := s.hist ++ [.wr s.addr v .ok]
      status := statusWord (statusValid s.status) false false
      rsps := s.rsps ++ [0x0000000000#40], answers := rest }) ∧
    (∀ rest, s.answers = .fails :: rest → exec i s = .next { s with
      hist := s.hist ++ [.wr s.addr v .fail]
      status := statusWord (statusValid s.status) false true
      rsps := s.rsps ++ [0x0100000000#40], answers := rest }) := by
  refine ⟨fun supply rest ha => ?ok, fun rest ha => ?fail⟩
  case ok =>
    rw [Completes.exec_eq (.wrote h (by rw [ha, List.head?_cons]) rfl)]
    simp [respond, setErrors, logEvent, ha, rspWord, RspCode.st]
  case fail =>
    rw [Completes.exec_eq (.writeFailed h (by rw [ha, List.head?_cons]) rfl)]
    simp [respond, setErrors, logEvent, ha, rspWord, RspCode.st]

/-- Settles O16: each listed instruction is a 2-byte command, listed with its frame. -/
theorem deviceCommandResults : Obligations.DeviceCommandResults := by
  intro x s p hp
  suffices h : ∃ c : Word, busCommand p.1 = some (c, false) ∧ p.2 = frameCmd c by
    obtain ⟨c, hc, hv⟩ := h
    rw [hv]
    exact (writes_frameCmd hc).results s
  simp only [List.mem_cons, List.not_mem_nil, or_false] at hp
  obtain rfl | rfl | rfl | rfl | rfl | rfl | rfl | rfl := hp
  · exact ⟨0x2003, rfl, rfl⟩
  · exact ⟨0x2008, rfl, rfl⟩
  · exact ⟨0x2050, rfl, rfl⟩
  · exact ⟨0x201E, rfl, rfl⟩
  · exact ⟨0x2003, rfl, rfl⟩
  · exact ⟨0x2008, rfl, rfl⟩
  · exact ⟨0x2050, rfl, rfl⟩
  · exact ⟨0x201E, rfl, rfl⟩

/-- Settles O17: both spellings write the 5-byte frame of 0x2061. -/
theorem setHumidityResults : Obligations.SetHumidityResults := by
  intro d s i hi
  have hw : Writes i (frameCmdw 0x2061 d) := by
    simp only [List.mem_cons, List.not_mem_nil, or_false] at hi
    obtain rfl | rfl := hi
    · exact ⟨nofun, .inr rfl, fun _ => rfl⟩
    · exact ⟨nofun, .inr rfl, fun _ => rfl⟩
  exact hw.results s

/-! ## IllegalRequest (R102, R113) -/

/-- A request that does not decode is taken and answered, nothing else (R102). -/
theorem step_of_undecodable {s : State} {r : Request} {rest : List Request} {e : Reject} (hr : s.resetIn = false)
    (hq : s.reqs = r :: rest) (hd : decode r = .error e) :
    step s = .next { s with reqs := rest, rsps := s.rsps ++ [rspWord .illegalRequest 0 0] } := by
  rw [step_of_error hr hq hd, respond, takeRequest, hq, List.tail_cons]

/-- Settles O24: a word whose `OP` is undefined does not decode. -/
theorem undefinedOpAnswersIllegalRequest : Obligations.UndefinedOpAnswersIllegalRequest := by
  intro s w rest hr hq hop
  rw [← reqOp_toNat] at hop
  exact step_of_undecodable hr hq (decode_of_op_undefined hop)

/-- Only RDREG at a reserved index completes with IllegalRequest, and then the answer is all it does (R101, R113). -/
theorem Completes.of_illegalRequest {i : Instr} {s t : State} (hc : Completes s i t)
    (h : t.rsps = s.rsps ++ [rspWord .illegalRequest 0 0]) :
    (∃ k x, i = .rdreg k x ∧ regOfIndex k = none) ∧ t = respond .illegalRequest 0 0 s := by
  cases hc with
  | @reserved k x hk => exact ⟨⟨k, x, rfl, hk⟩, rfl⟩
  | wrote => simp at h
  | writeFailed => simp at h
  | readFailed => simp at h
  | accepted => simp at h
  | discarded => simp at h
  | configured => simp at h
  | checksum => simp at h
  | register => simp at h

theorem mem_reserved_iff (k : BitVec 4) : k ∈ ([6, 7, 14, 15] : List (BitVec 4)) ↔ regOfIndex k = none := by
  simp [regOfIndex_eq_none]

/-- Settles O25: the two causes are a request that does not decode and the one completion with this answer. -/
theorem illegalRequestHasNoEffect : Obligations.IllegalRequestHasNoEffect := by
  intro s t r rest hr hq h
  simp only [mem_reserved_iff]
  cases hd : decode r with
  | error e =>
    cases h.symm.trans (step_of_undecodable hr hq hd)
    exact ⟨iff_of_true rfl (.inl ⟨e, rfl⟩), fun _ => rfl⟩
  | ok i =>
    have he : exec i (takeRequest s) = .next t := (step_of_ok hr hq hd).symm.trans h
    refine ⟨⟨fun hw => ?cause, ?answer⟩, fun hw => ?effect⟩
    case cause =>
      obtain ⟨⟨k, x, rfl, hk⟩, -⟩ := (Completes.of_exec he).of_illegalRequest hw
      exact .inr ⟨k, x, rfl, hk⟩
    case answer =>
      rintro (⟨e, hi⟩ | ⟨k, x, hi, hk⟩) <;> cases hi
      cases he.symm.trans (Completes.reserved hk).exec_eq
      rfl
    case effect =>
      obtain ⟨-, rfl⟩ := (Completes.of_exec he).of_illegalRequest hw
      rw [respond, takeRequest, hq, List.tail_cons]
      rfl

/-! ## The response of each row (R57) -/

theorem Writes.rspFields {i : Instr} {v : List Byte} (h : Writes i v) (c : RspCode) (t : State) :
    rspFields i c t = (0, 0) := by
  cases i with
  | crc8 | resp | cfgwr | rdreg => exact absurd rfl h.command
  | _ => rfl

theorem Writes.rspCodeAllowed {i : Instr} {v : List Byte} (h : Writes i v) (c : RspCode) :
    rspCodeAllowed i c = (c == .ok || c == .transportError) := by
  cases i with
  | crc8 | resp | cfgwr | rdreg => exact absurd rfl h.command
  | _ => rfl

/-- A response is not one of the registers. -/
@[simp] theorem readReg_respond (reg : Reg) (c : RspCode) (d1 d0 : Word) (s : State) :
    readReg reg (respond c d1 d0 s) = readReg reg s :=
  readReg_of_records reg s s.hist (s.rsps ++ [rspWord c d1 d0])

/-- A completed instruction's response has a code of its row's and the row's result fields. -/
theorem Completes.response {i : Instr} {s t : State} (hc : Completes s i t) :
    ∃ c : RspCode, rspCodeAllowed i c = true ∧
      t.rsps = s.rsps ++ [rspWord c (rspFields i c t).1 (rspFields i c t).2] := by
  cases hc with
  | wrote hv => exact ⟨.ok, by rw [hv.rspCodeAllowed]; rfl, by rw [hv.rspFields]; rfl⟩
  | writeFailed hv => exact ⟨.transportError, by rw [hv.rspCodeAllowed]; rfl, by rw [hv.rspFields]; rfl⟩
  | readFailed => exact ⟨.transportError, rfl, rfl⟩
  | accepted => exact ⟨.ok, rfl, rfl⟩
  | discarded => exact ⟨.checksumMismatch, rfl, rfl⟩
  | configured => exact ⟨.ok, rfl, rfl⟩
  | checksum => exact ⟨.ok, rfl, rfl⟩
  | register hreg => exact ⟨.ok, rfl, by simp [rspFields, hreg]⟩
  | reserved => exact ⟨.illegalRequest, rfl, by simp [rspFields]⟩

/-- Settles O26: an instruction responds as its row says, an undecodable request with IllegalRequest and zeros. -/
theorem oneResponsePerRequest : Obligations.OneResponsePerRequest :=
  ⟨fun _ _ _ => rfl, ⟨rfl, rfl, rfl, rfl⟩, fun _ _ _ h => (Completes.of_exec h).response,
    fun _ _ _ _ hr hq hd => ⟨_, step_of_undecodable hr hq hd, rfl⟩⟩

end Sys2Proof.Machine

namespace Sys2Proof.Machine

/-! ## The shift iteration (R70) -/

/-- Bit 0 of CRC_POLY is set and the shift clears it, so the bit shifted out is the new bit 0. -/
@[simp] theorem crc8Bit_getElem_zero (x : Byte) : (crc8Bit x)[0] = x[7] := by
  cases h : x[7] <;> simp [crc8Bit, crcPoly, h]

/-- The shift loses bit 7 only. -/
theorem eq_of_shiftLeft_one_eq {x y : Byte} (h7 : x[7] = y[7]) (h : x <<< 1 = y <<< 1) : x = y := by
  refine BitVec.eq_of_getElem_eq fun i hi => ?_
  obtain rfl | hi7 : i = 7 ∨ i + 1 < 8 := by omega
  · exact h7
  · have hbit : (x <<< 1)[i + 1] = (y <<< 1)[i + 1] := by rw [h]
    simpa using hbit

/-- The new bit 0 tells whether CRC_POLY was XORed in, so one iteration can be undone. -/
theorem crc8Bit_injective : Function.Injective crc8Bit := by
  intro x y h
  have h7 : x[7] = y[7] := by rw [← crc8Bit_getElem_zero, h, crc8Bit_getElem_zero]
  refine eq_of_shiftLeft_one_eq h7 ?_
  cases hy : y[7] <;> simpa [crc8Bit, h7, hy] using h

theorem crc8Shift8_eq_iterate : crc8Shift8 = crc8Bit^[8] := rfl

theorem crc8Shift8_injective : Function.Injective crc8Shift8 :=
  crc8Shift8_eq_iterate ▸ crc8Bit_injective.iterate 8

theorem crc8Shift8_eq_zero_iff (x : Byte) : crc8Shift8 x = 0 ↔ x = 0 :=
  crc8Shift8_injective.eq_iff' (by decide)

/-! ## The checksum of two bytes (R72, R75, R76) -/

theorem crc8_eq_shift8 (b0 b1 : Byte) : crc8 b0 b1 = crc8Shift8 (crc8Shift8 (0xFF ^^^ b0) ^^^ b1) := rfl

theorem crc8_injective_right (b0 : Byte) : Function.Injective (crc8 b0) := fun _ _ h =>
  (BitVec.xor_right_inj _).mp (crc8Shift8_injective h)

theorem crc8_injective_left (b1 : Byte) : Function.Injective (crc8 · b1) := fun _ _ h =>
  (BitVec.xor_right_inj _).mp (crc8Shift8_injective ((BitVec.xor_left_inj b1).mp (crc8Shift8_injective h)))

theorem crc8_eq_zero_iff (b0 b1 : Byte) : crc8 b0 b1 = 0 ↔ b1 = crc8Shift8 (0xFF ^^^ b0) := by
  rw [crc8_eq_shift8, crc8Shift8_eq_zero_iff, eq_comm (a := b1)]
  exact BitVec.xor_eq_zero_iff

/-- Settles O7: the model's definitions, with CRC_POLY and CRC_SEED written as numbers. -/
theorem crc8Functions : Obligations.Crc8Functions :=
  ⟨fun _ => rfl, fun _ _ => rfl, fun _ _ => rfl⟩

/-- Settles O8: the predicate is the comparison of the two, read from the other side. -/
theorem crcOkIffEqual : Obligations.CrcOkIffEqual := fun hi lo c => by
  rw [crcOk, beq_iff_eq, eq_comm]

/-! ## The printed table (R76) -/

/-- The printed values are checked against the shift iterations, one by one. -/
theorem crcTable_eq_map : crcTable = (List.range 256).map fun n => crc8Shift8 (BitVec.ofNat 8 n) := by
  decide +kernel

theorem crcTable_length : crcTable.length = 256 := by
  rw [crcTable_eq_map, List.length_map, List.length_range]

theorem crcTable_getElem? (x : Byte) : crcTable[x.toNat]? = some (crc8Shift8 x) := by
  rw [crcTable_eq_map, List.getElem?_map, List.getElem?_range x.isLt, Option.map_some, BitVec.ofNat_toNat,
    BitVec.setWidth_eq]

/-- Settles O9: an injection of the bytes into themselves is a bijection. -/
theorem crc8TableForm : Obligations.Crc8TableForm :=
  ⟨crcTable_length, crcTable_getElem?, fun _ _ => rfl, crc8_eq_shift8, crc8Shift8_injective.bijective_of_finite,
    fun b0 => (crc8_injective_right b0).bijective_of_finite,
    fun _ _ b1 hne h => hne (crc8_injective_left b1 h)⟩

/-! ## DOC0's unmasked loop (R73, C6) -/

/-- Neither the shift nor the XOR moves a bit down (R73): unmasked, bits 7 to 0 change as the 8-bit value does. -/
theorem ofNat_crc8WideBit (c : Nat) : BitVec.ofNat 8 (crc8WideBit c) = crc8Bit (BitVec.ofNat 8 c) := by
  have hshift : BitVec.ofNat 8 (c <<< 1) = BitVec.ofNat 8 c <<< 1 := by
    apply BitVec.eq_of_toNat_eq
    simp [Nat.shiftLeft_eq]
  have htop : (BitVec.ofNat 8 c).getLsbD 7 = c.testBit 7 := by rw [BitVec.getLsbD_ofNat]; rfl
  rw [crc8WideBit, crc8Bit, htop, ← hshift]
  split
  · exact BitVec.ofNat_xor
  · rfl

/-- Bits 7 to 0 agree after every number of iterations (R73). -/
theorem ofNat_crc8WideBits (n c : Nat) : BitVec.ofNat 8 (crc8WideBits n c) = crc8Bit^[n] (BitVec.ofNat 8 c) := by
  induction n generalizing c with
  | zero => rfl
  | succ n ih => rw [crc8WideBits, ih, ofNat_crc8WideBit, Function.iterate_succ_apply]

/-- DOC0's loop absorbs a byte into an unmasked checksum as R71 does into the masked one. -/
theorem ofNat_crc8WideBits_xor (c : Nat) (b : Byte) :
    BitVec.ofNat 8 (crc8WideBits 8 (c ^^^ b.toNat)) = crc8Byte (BitVec.ofNat 8 c) b := by
  rw [ofNat_crc8WideBits, BitVec.ofNat_xor, BitVec.ofNat_toNat, BitVec.setWidth_eq, crc8Byte,
    crc8Shift8_eq_iterate]

/-- Settles O10: the agreement is carried through both bytes, each iteration by iteration. -/
theorem unmaskedLoopAgrees : Obligations.UnmaskedLoopAgrees := by
  constructor
  · intro n c
    rw [← ofNat_crc8WideBits, BitVec.toNat_ofNat]
  · intro b0 b1
    rw [crc8Wide, ← BitVec.toNat_ofNat _ 8, ofNat_crc8WideBits_xor, ofNat_crc8WideBits_xor]
    rfl

/-! ## The CRC8 operation (R74) -/

/-- A byte answered in D0 stands in its lower half (R7, R57). -/
theorem rspWord_ok_byte (x : Byte) : rspWord .ok 0 (x.setWidth 16) = 0x00#8 ++ 0x0000#16 ++ 0x00#8 ++ x := by
  rw [← zeros_append (m := 8) x]
  exact (BitVec.append_assoc (x₁ := 0x00#8 ++ 0x0000#16) (x₂ := 0x00#8) (x₃ := x)).symm

theorem encode_crc8 (b0 b1 : Byte) (x : BitVec 16) : encode (.crc8 b0 b1 x) = .req (0x01#8 ++ b0 ++ b1 ++ x) :=
  congrArg (fun y : BitVec 24 => Request.req (y ++ x)) (BitVec.append_assoc' (x₁ := 0x01#8))

/-- Settles O11: the response is R57's word with the checksum zero-extended; only a zero is shifted to zero. -/
theorem crc8Result : Obligations.Crc8Result := by
  intro b0 b1 x s
  refine ⟨encode_crc8 b0 b1 x, ?_, crc8_eq_zero_iff b0 b1, by decide +kernel⟩
  rw [← rspWord_ok_byte]
  rfl

/-- Settles O27: both operations end in `respond`, which keeps every other field. -/
theorem answerOnlyFrame : Obligations.AnswerOnlyFrame := by
  rintro i s t (⟨b0, b1, x, rfl⟩ | ⟨r, x, rfl⟩) h
  · cases h
    rfl
  · obtain ⟨-, he⟩ | ⟨reg, -, he⟩ := execRdreg_cases r x s <;> cases h.symm.trans he
    · rfl
    · rfl

end Sys2Proof.Machine

namespace Sys2Proof.Machine

/-! ## The formatter: frames, response layouts, CMD and CMDW (R80 to R85) -/

theorem frameCmd_be16 (ch cl : Byte) : frameCmd (be16 ch cl) = [ch, cl] := by
  rw [frameCmd, hi8_be16, lo8_be16]

theorem frameCmdw_be16 (ch cl dh dl : Byte) :
    frameCmdw (be16 ch cl) (be16 dh dl) = [ch, cl, dh, dl, crc8 dh dl] := by
  rw [frameCmdw, hi8_be16, lo8_be16, hi8_be16, lo8_be16]

/-- Settles O12: two bytes side by side are the word `be16` makes of them. -/
theorem frameBytes : Obligations.FrameBytes := fun ch cl dh dl =>
  ⟨frameCmd_be16 ch cl, frameCmdw_be16 ch cl dh dl⟩

/-- Settles O13: `decodeResp` picks the bytes of a buffer written out by their offsets, one layout per variant. -/
theorem responseLayouts : Obligations.ResponseLayouts :=
  ⟨rfl, rfl, fun _ _ _ _ _ _ _ => rfl, fun _ _ _ _ _ => rfl⟩

/-- Settles O14: CMD writes the 2-byte frame of its command word. -/
theorem cmdResult : Obligations.CmdResult := fun c b s =>
  ⟨rfl, (writes_frameCmd (i := .cmd c b) rfl).results s⟩

theorem writes_cmdw (c d : Word) : Writes (.cmdw c d) (frameCmdw c d) :=
  ⟨nofun, .inr rfl, fun _ => rfl⟩

/-- Settles O15: CMDW writes the 5-byte frame of its command and data word. -/
theorem cmdwResult : Obligations.CmdwResult := fun c d s =>
  ⟨rfl, (writes_cmdw c d).results s⟩

/-- What a bus write leaves unchanged, and its event, whatever the transport answers (R82, R83). -/
theorem writeFrame_frame {v : List Byte} {s t : State} (h : writeFrame v s = .next t) :
    t = { s with status := t.status, hist := t.hist, rsps := t.rsps, answers := s.answers.tail } ∧
    statusValid t.status = statusValid s.status ∧ ∃ r, t.hist = s.hist ++ [.wr s.addr v r] := by
  obtain ⟨-, hw⟩ | ⟨a, -, -, hw⟩ | ⟨a, -, -, hw⟩ := writeFrame_cases v s <;> cases h.symm.trans hw
  · exact ⟨rfl, by simp, .ok, rfl⟩
  · exact ⟨rfl, by simp, .fail, rfl⟩

/-- A write operation with a data word writes a 5-byte frame of its command word (R81, R83). -/
theorem exists_writes_frameCmdw {i : Instr} {c : Word} (h : busCommand i = some (c, true)) :
    ∃ d, Writes i (frameCmdw c d) := by
  cases i <;> cases h
  case cmdw d => exact ⟨d, writes_cmdw c d⟩
  case setAh d => exact ⟨d, nofun, .inr rfl, fun _ => rfl⟩
  case wireSetAh d => exact ⟨d, nofun, .inr rfl, fun _ => rfl⟩

/-- The frame of a write operation begins with its command word; a data word makes it 5 bytes long (R80, R81). -/
theorem exists_writes_of_busCommand {i : Instr} {c : Word} {word : Bool} (h : busCommand i = some (c, word)) :
    ∃ v, Writes i v ∧ v.take 2 = [hi8 c, lo8 c] ∧ v.length = if word then 5 else 2 := by
  cases word with
  | false => exact ⟨frameCmd c, writes_frameCmd h, rfl, rfl⟩
  | true =>
    obtain ⟨d, hw⟩ := exists_writes_frameCmdw h
    exact ⟨frameCmdw c d, hw, rfl, rfl⟩

/-- Settles O28: every write operation is one `writeFrame` of a frame that begins with its command word. -/
theorem busWriteFrame : Obligations.BusWriteFrame := by
  intro i s t c word hc h
  obtain ⟨v, hv, htake, hlen⟩ := exists_writes_of_busCommand hc
  obtain ⟨hkeep, hvalid, r, hhist⟩ := writeFrame_frame ((hv.exec_eq s).symm.trans h)
  exact ⟨hkeep, hvalid, v, r, hhist, htake, hlen⟩

end Sys2Proof.Machine

namespace Sys2Proof.Machine

open Config

/-- Settles O34: a step with no request at the port is a wait. -/
theorem stepWaitsForRequest : Obligations.StepWaitsForRequest := fun _ => step_of_no_request

/-! ## What an obedient host has done (R133, R139; log entry 15) -/

/-- Everything an obedient action can be, and what the host remembers after it. -/
inductive ObedientStep (d : HostDelays) (t : HostTrack) : HostAction → HostTrack → Prop where
  | paused (ms : Nat) : ObedientStep d t (.pause ms) { t with burnin := t.burnin - ms, owed := t.owed - ms }
  | meant : ObedientStep d t .meansNewLayout { t with meant := true }
  | idle {r : Request} {st : RspCode} (hbus : requestUsesBus r = false) (hcfg : ∀ v x, decode r ≠ .ok (.cfgwr v x)) :
      ObedientStep d t (.request r st) t
  | configured {r : Request} {st : RspCode} {v : BitVec 2} {x : BitVec 30} (hd : decode r = .ok (.cfgwr v x))
      (hkeep : t.reading = true → t.meant = false → cfgVariant v = t.variant) :
      ObedientStep d t (.request r st) { t with variant := cfgVariant v }
  | read {r : Request} {st : RspCode} {x : BitVec 32} (hd : decode r = .ok (.resp x)) (hreading : t.reading = true)
      (howed : t.owed = 0) :
      ObedientStep d t (.request r st) { t with reading := false, meant := false }
  | commanded {r : Request} {st : RspCode} {i : Instr} {c : Word × Bool} (hd : decode r = .ok i)
      (hc : busCommand i = some c) (hmay : hostMayCommand t c = true) :
      ObedientStep d t (.request r st) (hostAfterCommand d t c st)

theorem ObedientStep.of_hostInstr {d : HostDelays} {t t' : HostTrack} {r : Request} {st : RspCode} {i : Instr}
    (hd : decode r = .ok i) (h : hostInstr d t st i = some t') : ObedientStep d t (.request r st) t' := by
  obtain ⟨hfree, -, -⟩ | ⟨⟨x, rfl⟩, hreading, howed, -⟩ | ⟨c, hc, hmay, rfl⟩ := hostInstr_cases h
  case inl =>
    cases i with
    | crc8 b0 b1 x =>
      cases h
      exact .idle (requestUsesBus_of_ok hd) (by simp [hd])
    | rdreg k x =>
      cases h
      exact .idle (requestUsesBus_of_ok hd) (by simp [hd])
    | cfgwr v x =>
      rw [hostInstr] at h
      split at h
      next => cases h
      next hkeep =>
        cases h
        exact .configured hd (by simpa using hkeep)
    | _ => cases hfree
  case inr.inl =>
    rw [hostInstr, if_pos (by simp [hreading, howed])] at h
    cases h
    exact .read hd hreading howed
  case inr.inr => exact .commanded hd hc hmay

theorem ObedientStep.of_hostAct {d : HostDelays} {t t' : HostTrack} {a : HostAction} (h : hostAct d t a = some t') :
    ObedientStep d t a t' := by
  cases a with
  | pause ms =>
    cases h
    exact .paused ms
  | meansNewLayout =>
    cases h
    exact .meant
  | request r st =>
    rw [hostAct] at h
    cases hd : decode r with
    | error e =>
      rw [hd] at h
      cases h
      exact .idle (requestUsesBus_of_error hd) (by simp [hd])
    | ok i =>
      rw [hd] at h
      exact .of_hostInstr hd h

/-- An obedient write operation is a permitted command, and the host remembers it. -/
theorem ObedientStep.of_busCommand {d : HostDelays} {t t' : HostTrack} {r : Request} {st : RspCode} {i : Instr}
    {c : Word × Bool} (h : ObedientStep d t (.request r st) t') (hd : decode r = .ok i) (hc : busCommand i = some c) :
    hostMayCommand t c = true ∧ t' = hostAfterCommand d t c st := by
  cases h with
  | idle hbus hcfg =>
    have huses : usesBus i = true := (usesBus_iff i).mpr (.inl (by simp [hc]))
    cases (requestUsesBus_of_ok hd ▸ hbus).symm.trans huses
  | configured hcfg hkeep =>
    cases hd.symm.trans hcfg
    cases hc
  | read hresp hreading howed =>
    cases hd.symm.trans hresp
    cases hc
  | commanded hd' hc' hmay =>
    cases hd.symm.trans hd'
    cases hc.symm.trans hc'
    exact ⟨hmay, rfl⟩

/-- While a reading is pending, a CFGWR keeps VARIANT unless the host means the new layout (R139). -/
theorem ObedientStep.keepsVariant {d : HostDelays} {t t' : HostTrack} {r : Request} {st : RspCode} {v : BitVec 2}
    {x : BitVec 30} (h : ObedientStep d t (.request r st) t') (hd : decode r = .ok (.cfgwr v x))
    (hreading : t.reading = true) (hmeant : t.meant = false) : cfgVariant v = t.variant := by
  cases h with
  | idle hbus hcfg => exact absurd hd (hcfg v x)
  | configured hcfg hkeep =>
    cases hd.symm.trans hcfg
    exact hkeep hreading hmeant
  | read hresp hreading howed => cases hd.symm.trans hresp
  | commanded hd' hc hmay =>
    cases hd.symm.trans hd'
    cases hc

/-- What holds where a trace begins and is kept by every obedient action holds after the obedient trace. -/
theorem hostTrace_invariant {d : HostDelays} {t₀ : HostTrack} {P : List HostAction → HostTrack → Prop}
    (hstart : P [] t₀) (hstep : ∀ {tr t a t'}, P tr t → ObedientStep d t a t' → P (tr ++ [a]) t')
    (tr : List HostAction) {t : HostTrack} (h : hostTrace d t₀ tr = some t) : P tr t := by
  induction tr using List.reverseRecOn generalizing t with
  | nil =>
    cases h
    exact hstart
  | append_singleton tr a ih =>
    obtain ⟨u, hu, ha⟩ := hostTrace_append_singleton h
    exact hstep (ih hu) (.of_hostAct ha)

/-- Each action of an obedient trace is obedient after what was done before it. -/
theorem obedientStep_of_hostObeys {d : HostDelays} {before after : List HostAction} {a : HostAction}
    (h : hostObeys d (before ++ [a] ++ after) = true) :
    ∃ t t', hostTrace d .start before = some t ∧ ObedientStep d t a t' := by
  obtain ⟨w, hw⟩ := Option.isSome_iff_exists.mp h
  rw [hostTrace_append, Option.bind_eq_some_iff] at hw
  obtain ⟨t', ht', -⟩ := hw
  obtain ⟨t, ht, ha⟩ := hostTrace_append_singleton ht'
  exact ⟨t, t', ht, .of_hostAct ha⟩

/-! ### Burn-in before measuring (R133) -/

/-- IAQ_INIT was written with success and all but `owed` of the burn-in time waited since. -/
def BurnedIn (d : HostDelays) (tr : List HostAction) (owed : Nat) : Prop :=
  ∃ (early between : List HostAction) (m : Request) (j : Instr),
    tr = early ++ [.request m .ok] ++ between ∧ decode m = .ok j ∧ busCommand j = some (0x2003, false) ∧
      d.tBurninMs ≤ hostPauses between + owed

/-- Whatever is done next, its pause counts as burn-in waited. -/
theorem BurnedIn.append {d : HostDelays} {tr : List HostAction} {owed owed' : Nat} {a : HostAction}
    (h : BurnedIn d tr owed) (howed : owed ≤ hostPauses [a] + owed') : BurnedIn d (tr ++ [a]) owed' := by
  obtain ⟨early, between, m, j, rfl, hm, hj, hwait⟩ := h
  refine ⟨early, between ++ [a], m, j, by simp, hm, hj, ?_⟩
  rw [hostPauses_append]
  omega

/-- Any command but a successful IAQ_INIT leaves what the host remembers of the burn-in. -/
theorem hostAfterCommand_burnin_of_not_init {c : Word × Bool} {st : RspCode} (h : ¬(c = (0x2003, false) ∧ st = .ok))
    (d : HostDelays) (t : HostTrack) :
    (hostAfterCommand d t c st).inited = t.inited ∧ (hostAfterCommand d t c st).burnin = t.burnin := by
  by_cases hc : c = (0x2003, false)
  · have hst : st ≠ .ok := fun hst => h ⟨hc, hst⟩
    simp only [hostAfterCommand, if_pos hc, if_neg hst, and_self]
  · simp only [hostAfterCommand, if_neg hc, apply_ite HostTrack.inited, apply_ite HostTrack.burnin, ite_self, and_self]

theorem burnedIn_of_obedientStep {d : HostDelays} {tr : List HostAction} {t t' : HostTrack} {a : HostAction}
    (htr : t.inited = true → BurnedIn d tr t.burnin) (h : ObedientStep d t a t') (ht' : t'.inited = true) :
    BurnedIn d (tr ++ [a]) t'.burnin := by
  cases h with
  | paused ms =>
    refine (htr ht').append ?_
    simp only [hostPauses]
    omega
  | meant => exact (htr ht').append (Nat.le_add_left _ _)
  | idle hbus hcfg => exact (htr ht').append (Nat.le_add_left _ _)
  | configured hd hkeep => exact (htr ht').append (Nat.le_add_left _ _)
  | read hd hreading howed => exact (htr ht').append (Nat.le_add_left _ _)
  | @commanded r st i c hd hc hmay =>
    by_cases hinit : c = (0x2003, false) ∧ st = .ok
    case pos =>
      obtain ⟨rfl, rfl⟩ := hinit
      exact ⟨tr, [], r, i, by simp, hd, hc, Nat.le_add_left _ _⟩
    case neg =>
      obtain ⟨hinited, hburnin⟩ := hostAfterCommand_burnin_of_not_init hinit d t
      rw [hburnin]
      exact (htr (hinited ▸ ht')).append (Nat.le_add_left _ _)

/-- A measurement is permitted only after the initialisation, with no burn-in owed. -/
theorem burnin_done_of_hostMayCommand {t : HostTrack} {c : Word} (hc : c = 0x2008 ∨ c = 0x2050)
    (h : hostMayCommand t (c, false) = true) : t.inited = true ∧ t.burnin = 0 := by
  rw [hostMayCommand, Bool.and_eq_true] at h
  obtain ⟨-, hburnin⟩ := h
  obtain rfl | rfl := hc
  · simpa using hburnin
  · simpa using hburnin

/-- Where the host remembers its IAQ_INIT, the trace says which and how much of the burn-in is waited since. -/
theorem burnedIn_of_hostTrace {d : HostDelays} (tr : List HostAction) {t : HostTrack}
    (h : hostTrace d .start tr = some t) : t.inited = true → BurnedIn d tr t.burnin :=
  hostTrace_invariant (P := fun tr u => u.inited = true → BurnedIn d tr u.burnin) (by simp [HostTrack.start])
    burnedIn_of_obedientStep tr h

/-- Settles O46: a measurement is permitted only after IAQ_INIT, with none of its burn-in owed. -/
theorem obedientHostInitialisesFirst : Obligations.ObedientHostInitialisesFirst := by
  intro d before after r st i c h hd hi hc
  obtain ⟨t, t', ht, hstep⟩ := obedientStep_of_hostObeys h
  obtain ⟨hmay, -⟩ := hstep.of_busCommand hd hi
  obtain ⟨hinited, hburnin⟩ := burnin_done_of_hostMayCommand hc hmay
  have hburned := burnedIn_of_hostTrace before ht hinited
  rwa [hburnin] at hburned

/-! ### VARIANT between a measurement and its RESP (R139) -/

theorem hostAfterCommand_variant (d : HostDelays) (t : HostTrack) (c : Word × Bool) (st : RspCode) :
    (hostAfterCommand d t c st).variant = t.variant := by
  simp only [hostAfterCommand, apply_ite HostTrack.variant, ite_self]

theorem hostAfterCommand_meant (d : HostDelays) (t : HostTrack) (c : Word × Bool) (st : RspCode) :
    (hostAfterCommand d t c st).meant = t.meant := by
  simp only [hostAfterCommand, apply_ite HostTrack.meant, ite_self]

theorem variantAfter_of_cfgwr {r : Request} {v : BitVec 2} {x : BitVec 30} (hd : decode r = .ok (.cfgwr v x))
    (st : RspCode) (v₀ : Variant) : (HostAction.request r st).variantAfter v₀ = cfgVariant v := by
  simp only [HostAction.variantAfter, hd]

theorem variantAfter_of_not_cfgwr {r : Request} (h : ∀ v x, decode r ≠ .ok (.cfgwr v x)) (st : RspCode) (v₀ : Variant) :
    (HostAction.request r st).variantAfter v₀ = v₀ := by
  rw [HostAction.variantAfter]
  split
  next v x hd => exact absurd hd (h v x)
  next => rfl

/-- The host remembers CFG.VARIANT as its action leaves it (R100). -/
theorem ObedientStep.variant_eq {d : HostDelays} {t t' : HostTrack} {a : HostAction} (h : ObedientStep d t a t') :
    t'.variant = a.variantAfter t.variant := by
  cases h with
  | paused ms => rfl
  | meant => rfl
  | idle hbus hcfg => exact (variantAfter_of_not_cfgwr hcfg _ _).symm
  | configured hd hkeep => exact (variantAfter_of_cfgwr hd _ _).symm
  | read hd hreading howed => exact (variantAfter_of_not_cfgwr (by simp [hd]) _ _).symm
  | @commanded r st i c hd hc hmay =>
    have hcfg : ∀ v x, decode r ≠ .ok (.cfgwr v x) := by
      intro v x hcfg
      cases hd.symm.trans hcfg
      cases hc
    rw [hostAfterCommand_variant, variantAfter_of_not_cfgwr hcfg]

theorem ObedientStep.meant_eq_false {d : HostDelays} {t t' : HostTrack} {a : HostAction} (h : ObedientStep d t a t')
    (ha : a ≠ .meansNewLayout) (ht : t.meant = false) : t'.meant = false := by
  cases h with
  | paused ms => exact ht
  | meant => exact absurd rfl ha
  | idle hbus hcfg => exact ht
  | configured hd hkeep => exact ht
  | read hd hreading howed => rfl
  | commanded hd hc hmay => rw [hostAfterCommand_meant, ht]

/-- A pending reading stays pending until a RESP (R141). -/
theorem ObedientStep.reading_eq_true {d : HostDelays} {t t' : HostTrack} {a : HostAction} (h : ObedientStep d t a t')
    (ha : a.isResp = false) (ht : t.reading = true) : t'.reading = true := by
  cases h with
  | paused ms => exact ht
  | meant => exact ht
  | idle hbus hcfg => exact ht
  | configured hd hkeep => exact ht
  | read hd hreading howed => simp [HostAction.isResp, hd] at ha
  | commanded hd hc hmay => cases ht.symm.trans (reading_of_hostMayCommand hmay)

/-- A measurement written with success makes a reading pending (R141). -/
theorem ObedientStep.reading_of_measurement {d : HostDelays} {t t' : HostTrack} {m : Request} {i : Instr}
    (h : ObedientStep d t (.request m .ok) t') (hd : decode m = .ok i)
    (hi : busCommand i = some (0x2008, false) ∨ busCommand i = some (0x2050, false)) : t'.reading = true := by
  obtain hi | hi := hi
  · obtain ⟨-, rfl⟩ := h.of_busCommand hd hi
    rfl
  · obtain ⟨-, rfl⟩ := h.of_busCommand hd hi
    rfl

theorem variant_of_hostTrace {d : HostDelays} (tr : List HostAction) {t : HostTrack}
    (h : hostTrace d .start tr = some t) : t.variant = hostVariant tr :=
  hostTrace_invariant (P := fun tr u => u.variant = hostVariant tr) rfl
    (fun hv hstep => by rw [hostVariant_append, ← hv, hstep.variant_eq]) tr h

theorem meant_eq_false_of_hostTrace {d : HostDelays} (tr : List HostAction) {t : HostTrack}
    (h : hostTrace d .start tr = some t) : HostAction.meansNewLayout ∉ tr → t.meant = false :=
  hostTrace_invariant (P := fun tr u => HostAction.meansNewLayout ∉ tr → u.meant = false) (fun _ => rfl)
    (fun hm hstep htr => by
      obtain ⟨hfirst, hlast⟩ : HostAction.meansNewLayout ∉ _ ∧ HostAction.meansNewLayout ≠ _ := by simpa using htr
      exact hstep.meant_eq_false hlast.symm (hm hfirst)) tr h

theorem reading_of_hostTrace {d : HostDelays} {t₀ : HostTrack} (ht₀ : t₀.reading = true) (tr : List HostAction)
    {t : HostTrack} (h : hostTrace d t₀ tr = some t) : (∀ a ∈ tr, a.isResp = false) → t.reading = true :=
  hostTrace_invariant (P := fun tr u => (∀ a ∈ tr, a.isResp = false) → u.reading = true) (fun _ => ht₀)
    (fun hr hstep htr => by
      rw [List.forall_mem_append, List.forall_mem_singleton] at htr
      obtain ⟨hfirst, hlast⟩ := htr
      exact hstep.reading_eq_true hlast (hr hfirst)) tr h

/-- Settles O47: from the measurement on a reading is pending, and the host never means a new layout. -/
theorem obedientHostKeepsVariant : Obligations.ObedientHostKeepsVariant := by
  intro d early between after m r st i v x h hm hi hbetween hmeant hr
  obtain ⟨t, t', ht, hstep⟩ := obedientStep_of_hostObeys h
  obtain ⟨u, hu, hbt⟩ := Option.bind_eq_some_iff.mp (hostTrace_append .. ▸ ht)
  obtain ⟨s, -, hms⟩ := hostTrace_append_singleton hu
  have hreading : t.reading = true :=
    reading_of_hostTrace ((ObedientStep.of_hostAct hms).reading_of_measurement hm hi) between hbt hbetween
  have hlayout : t.meant = false := meant_eq_false_of_hostTrace _ ht (by simpa using hmeant)
  rw [hstep.keepsVariant hr hreading hlayout, variant_of_hostTrace _ ht]

end Sys2Proof.Machine
